-- ==== Sys2Proof/Word.lean ====
section
/-! DEFINITION. The widths of OWT's values (00_scope.md R7: all values are unsigned, bit 0 is the least significant). -/

namespace Sys2Proof

/-- A host register or a command word: 32 bits (20_memory.md R52, 30_encoding.md R80). -/
abbrev Word := BitVec 32

/-- A byte on the wire, of BUF, of the ROM code or of the CRC accumulator. -/
abbrev Byte := BitVec 8

/-- A duration in ticks of 0.25 µs: a profile constant or IMM16 (40_timing.md R101, R103). -/
abbrev Ticks := BitVec 16

/-- A bit position of the search, 0 for "none" (00_scope.md R10; 7 bits: 10_state.md R25, R33). -/
abbrev Pos := BitVec 7

/-- The 64-bit ROM code (10_state.md R26). -/
abbrev RomCode := BitVec 64

end Sys2Proof
end

