-- ==== Sys2Proof/Machine/CrcTable.lean ====
section
/-! DEFINITION. The CRC8 update and its table (43_crc8.md R200, R201). -/

namespace Sys2Proof.Machine

open Sys2Proof

/-- One turn of the loop of 43_crc8.md R201. -/
def crc8Shift (c : Byte) : Byte := if c.getLsbD 0 then (c >>> 1) ^^^ 0x8C#8 else c >>> 1

/-- `TABLE[i]`, by the loop of R201. PRESUMED (the spec's own mark: general knowledge G3; log 16). -/
def crc8Table (i : Byte) : Byte :=
  crc8Shift (crc8Shift (crc8Shift (crc8Shift (crc8Shift (crc8Shift (crc8Shift (crc8Shift i)))))))

/-- `Crc8Update(c, b) = TABLE[c xor b]` (R200). -/
def crc8Update (c b : Byte) : Byte := crc8Table (c ^^^ b)

end Sys2Proof.Machine
end

