-- ==== Sys2Proof/Config.lean ====
section
/-! DEFINITION. The parameters of an OWT instance (00_scope.md R6) and the free values of the model. -/

namespace Sys2Proof

/-- The names of the ten timing constants (40_timing.md R103). -/
inductive TimeConst where
  | a | b | c | d | e | f | g | h | i | j
  deriving DecidableEq, Repr

/-- PROFILE, the ten constants `A..J` in ticks (40_timing.md R103). -/
structure Profile where
  tA : Ticks
  tB : Ticks
  tC : Ticks
  tD : Ticks
  tE : Ticks
  tF : Ticks
  tG : Ticks
  tH : Ticks
  tI : Ticks
  tJ : Ticks
  deriving DecidableEq, Repr

/-- The constant of a name. -/
def Profile.const (p : Profile) : TimeConst → Ticks
  | .a => p.tA
  | .b => p.tB
  | .c => p.tC
  | .d => p.tD
  | .e => p.tE
  | .f => p.tF
  | .g => p.tG
  | .h => p.tH
  | .i => p.tI
  | .j => p.tJ

/-- The default column of 40_timing.md R103, in ticks. PRESUMED (the spec's own mark: general knowledge G1; log 2). -/
def Config.defaultProfile : Profile where
  tA := 24
  tB := 256
  tC := 240
  tD := 40
  tE := 36
  tF := 220
  tG := 0
  tH := 1920
  tI := 280
  tJ := 1640

/-- The parameters of an instance (00_scope.md R6), but TABLE, whose one intended value is computed
(43_crc8.md R201). They are data of the state, which no step changes (10_state.md R35), so that what is
said of every state is said of every instance (log 1). -/
structure Params where
  /-- OW_BASE, the host address of the window (20_memory.md R51). -/
  owBase : Nat
  /-- CLK_HZ, the block clock (40_timing.md R102). -/
  clkHz : Nat
  /-- BLOCK_MAX, the bytes of BUF (10_state.md R27, R29). -/
  blockMax : Nat
  /-- PROFILE (40_timing.md R103). -/
  profile : Profile
  /-- EVENT_LATENCY, in block cycles (40_timing.md R106). -/
  eventLatency : Nat
  deriving DecidableEq, Repr

/-- The legal values of 00_scope.md R6. -/
def Params.legal (p : Params) : Bool :=
  decide (p.owBase % 256 = 0) && decide (0 < p.clkHz) && decide (p.clkHz % 1000000 = 0)
    && decide (p.blockMax % 4 = 0) && decide (4 ≤ p.blockMax) && decide (p.blockMax ≤ 64)

/-- Block clock cycles in one microsecond (40_timing.md R102). -/
def Params.cyclesPerUs (p : Params) : Nat := p.clkHz / 1000000

/-- The parameters at `State.reset`: the defaults of 00_scope.md R6 where it gives one (log 2), and for the
three it leaves OPEN a legal value that no statement rests on. DESIGN CHOICE (log 1). -/
def Config.defaultParams : Params where
  owBase := 0
  clkHz := 1000000
  blockMax := 16
  profile := Config.defaultProfile
  eventLatency := 0

/-- The level of a sample past the listed answers: a free value (93_implementation_defined.md U1; log 3). -/
opaque Config.freeLevel : Nat → Bool

/-- A host read of a result register while BUSY is 1: a free value (U2; log 5). -/
opaque Config.freeWord : Nat → Word

/-- BUF byte `k` after the `n`-th block reset: a free value (U3; log 4). -/
opaque Config.freeByte (n k : Nat) : Byte

end Sys2Proof
end

