-- ==== Sys2Proof/Machine/State.lean ====
section
/-! DEFINITION. The state of OWT (10_state.md), as plain data, and its value after reset (70_reset_and_hazards.md R251). -/

namespace Sys2Proof.Machine

open Sys2Proof

/-- The outcome codes of a search command (60_exceptions.md R221); code 7 is never produced. -/
inductive Sres where
  | none | found | exhausted | noPresence | busError | crcError | zeroFamily
  deriving DecidableEq, Repr

/-- A line event (00_scope.md R9): `D`, `R`, `W(us)`, `S->level`. -/
inductive LineEvent where
  | drive
  | release
  | wait (us : Nat)
  | sample (level : Bool)
  deriving DecidableEq, Repr

/-- Where the sequencer puts a sampled level. -/
inductive Dest where
  /-- `p`, inverted (41_transactor.md R124). -/
  | presence
  /-- `r[i]` (R128, R129; bit 0 for R132). -/
  | byteBit (i : Nat)
  /-- `id_bit` (42_search.md R162 step 4a). -/
  | idBit
  /-- `cmp_bit` (R162 step 4a). -/
  | cmpBit
  deriving DecidableEq, Repr

/-- What the sequencer does between line events; none of these takes time (log 10). -/
inductive Act where
  /-- `r <- 0x00` (41_transactor.md R128, R129). -/
  | clearByte
  /-- `BUF[k] <- r` (R136). -/
  | storeByte (k : Nat)
  /-- `ResetSearchState()` (42_search.md R161, R173). -/
  | resetSearch
  /-- Step 1 of the pass and the clearing of CRC (R162). -/
  | passBegin
  /-- The decision of step 2 (R162). -/
  | presenceCheck
  /-- `last_zero <- 0; ok <- 1; n <- 1` (R162 step 4). -/
  | loopBegin
  /-- Steps 4b to 4d, and the ROM bit of step 4e (R162). -/
  | direction
  /-- Step 4f and `n <- n + 1` (R162). -/
  | advance
  /-- Steps 5 to 7 (R162). -/
  | passEnd
  deriving DecidableEq, Repr

/-- One element of the sequencer's progress through a command (10_state.md R30). -/
inductive Op where
  /-- `Drive()` (41_transactor.md R120). -/
  | drive
  /-- `Release()` (R121). -/
  | release
  /-- `Delay(ticks)` (40_timing.md R100). -/
  | delay (ticks : Ticks)
  /-- `Delay(one)` if `dir` is 1, else `Delay(zero)`: a wait of `WriteBit(dir)` (R125, 42_search.md R162 step 4e). -/
  | delayDir (one zero : Ticks)
  /-- `Sample()` (R122). -/
  | sample (into : Dest)
  | act (a : Act)
  deriving DecidableEq, Repr

/-- What a command's completion writes beside BUSY (10_state.md R30). -/
inductive Completion where
  /-- Nothing (41_transactor.md R131, R133, R136; 40_timing.md R107). -/
  | nothing
  /-- `STATUS.PRESENCE <- p` (R130). -/
  | presence
  /-- `DATA <- r` (R132, R134, R135). -/
  | data
  /-- `CRC <- Crc8Update(CRC, byte)` (43_crc8.md R203). -/
  | crc (byte : Byte)
  /-- SRES, FOUND and PRESENCE (42_search.md R172). -/
  | search
  deriving DecidableEq, Repr

/-- A command as the sequencer runs it: its events and inner actions in order, and what its completion writes. -/
structure Program where
  ops : List Op
  result : Completion
  deriving DecidableEq, Repr

/-- The sequencer's temporaries, live only during a command (10_state.md R33; 42_search.md R162;
41_transactor.md R124, R128, R129). -/
structure Temps where
  /-- `r`, the byte being read. -/
  byte : Byte := 0
  /-- `p`, 1 for presence. -/
  p : Bool := false
  /-- `p_seen`. -/
  pSeen : Bool := false
  /-- `n`, the position. -/
  n : Pos := 0
  /-- `last_zero`. -/
  lastZero : Pos := 0
  /-- `id_bit`. -/
  idBit : Bool := false
  /-- `cmp_bit`. -/
  cmpBit : Bool := false
  /-- `dir`. -/
  dir : Bool := false
  /-- `ok`. -/
  ok : Bool := false
  /-- `res`. -/
  res : Sres := .none
  /-- The pass has met an exit and only the completion is left: the model's own (log 9). -/
  stop : Bool := false
  deriving DecidableEq, Repr

/-- No temporary is live. DESIGN CHOICE: held as zeros (log 9). -/
def Temps.fresh : Temps := {}

/-- What the outside world does next (10_state.md R20, 70_reset_and_hazards.md R250), and when the sequencer moves
(R253: a command completes after any finite number of host steps; log 6). -/
inductive Input where
  /-- A host read of `bytes` bytes at a host address. -/
  | hostRead (addr bytes : Nat)
  /-- A host write of `bytes` bytes at a host address. -/
  | hostWrite (addr bytes : Nat) (v : Word)
  /-- The reset input is asserted. -/
  | resetAssert
  /-- The reset input is released. -/
  | resetRelease
  /-- The sequencer makes one move: one line event, one clock cycle of a wait or a gap, or the completion. -/
  | sequencer
  /-- The command in progress runs to its completion with nothing between. -/
  | run
  deriving DecidableEq, Repr

/-- The register an offset names (20_memory.md R52). -/
inductive Reg where
  | cmd | status | data | crc | srch | romLo | romHi | info
  | time (const : TimeConst)
  | buf (k : Nat)
  | reserved
  deriving DecidableEq, Repr

/-- The state of OWT: INVENTORY.md's "## State" says each field's rule and reset value. -/
@[ext]
structure State where
  /-- The instance's parameters: INFO, T_A to T_J and the rest of 00_scope.md R6. No step changes them. -/
  params : Params
  /-- STATUS.BUSY. -/
  busy : Bool
  /-- STATUS.PRESENCE. -/
  presence : Bool
  /-- STATUS.FOUND. -/
  found : Bool
  /-- STATUS.SRES. -/
  sres : Sres
  /-- STATUS.OVR. -/
  ovr : Bool
  /-- STATUS.ILL. -/
  ill : Bool
  /-- DATA[7:0]. -/
  data : Byte
  /-- CRC[7:0], the CRC8 accumulator. -/
  crc : Byte
  /-- SRCH.LAST_DISC. -/
  lastDisc : Pos
  /-- SRCH.LAST_DEV_FLAG. -/
  lastDevFlag : Bool
  /-- SRCH.LAST_FAM_DISC. -/
  lastFamDisc : Pos
  /-- ROM; position `n` is bit `n - 1`. -/
  rom : RomCode
  /-- BUF[0] first. -/
  buf : List Byte
  /-- LINE, true while the block pulls the line low. -/
  line : Bool
  /-- CUR, the accepted command word. -/
  cur : Word
  /-- What is left of the command in progress; none before its first move and when idle. -/
  progress : Option Program
  /-- The wait counter, in block clock cycles. -/
  waitLeft : Nat
  /-- The cycles of EVENT_LATENCY still to pass. -/
  gap : Nat
  /-- The sequencer's temporaries. -/
  temps : Temps
  /-- The reset input is asserted. -/
  inReset : Bool
  /-- The model's own: what happens next, next first. -/
  inputs : List Input
  /-- The model's own: the levels the bus environment will answer, next first. -/
  levels : List Bool
  /-- The model's own: the line events performed, newest first. -/
  trace : List LineEvent
  /-- The model's own: the words host reads returned, newest first. -/
  replies : List Word
  /-- The model's own: samples drawn from `Config.freeLevel`. -/
  sampleDraws : Nat
  /-- The model's own: reads drawn from `Config.freeWord`. -/
  readDraws : Nat
  /-- The model's own: block resets, each with its draw of BUF. -/
  resetDraws : Nat
  deriving DecidableEq, Repr

/-- Why a step can end in a fault. OWT itself raises none (60_exceptions.md R220). -/
inductive Fault where
  /-- The sequencer is BUSY with a word in CUR that is no legal command. Raised by a step that would run it.
  Safe: acceptance lets no such word in (30_encoding.md R86), so no run from reset reaches it (log 13). -/
  | sequencerStuck
  deriving DecidableEq, Repr

/-- Why a step can end in a refusal. -/
inductive Refusal where
  /-- Raised by an arm of `exec` whose instruction has no meaning yet; there is none. Safe. -/
  | notModelled (mnemonic : String)
  /-- A host access that is not 32 bits wide at a 4-aligned offset, raised by the step of that access. Safe:
  "a model refuses it" (20_memory.md R53; log 12). -/
  | undefinedAccess
  /-- A host access while the reset input is asserted, raised by the step of that access. Safe: "a model
  refuses them" (70_reset_and_hazards.md R250; log 12). -/
  | accessDuringReset
  /-- A host access at an address outside the window, which is not OWT's, raised by the step of that access.
  Safe (20_memory.md R51; log 12). -/
  | addressOutsideWindow
  deriving DecidableEq, Repr

/-- BUF after the `n`-th block reset: every byte is a free draw (70_reset_and_hazards.md R251; log 4). -/
def State.drawnBuf (blockMax n : Nat) : List Byte :=
  (List.range blockMax).map (Config.freeByte n)

/-- The state right after reset of an instance (70_reset_and_hazards.md R251), before anything outside has acted. -/
def State.resetOf (p : Params) : State where
  params := p
  busy := false
  presence := false
  found := false
  sres := .none
  ovr := false
  ill := false
  data := 0
  crc := 0
  lastDisc := 0
  lastDevFlag := false
  lastFamDisc := 0
  rom := 0
  buf := State.drawnBuf p.blockMax 0
  line := false
  cur := 0
  progress := none
  waitLeft := 0
  gap := 0
  temps := Temps.fresh
  inReset := false
  inputs := []
  levels := []
  trace := []
  replies := []
  sampleDraws := 0
  readDraws := 0
  resetDraws := 1

/-- The machine right after reset, with the default parameters. -/
def State.reset : State := State.resetOf Config.defaultParams

end Sys2Proof.Machine
end

