-- ==== Sys2Proof/Machine/Operands.lean ====
section
/-! DEFINITION. The operands that are state: register views, their packing, and the bits of ROM and BUF (20_memory.md R52, R58). -/

namespace Sys2Proof.Machine

open Sys2Proof

/-- `v` with bit `i` set to `b`. -/
def setBit {w : Nat} (v : BitVec w) (i : Nat) (b : Bool) : BitVec w :=
  if b then v ||| (1#w <<< i) else v &&& ~~~(1#w <<< i)

/-- A flag at bit `i` of a register's word. -/
def flagAt (i : Nat) (b : Bool) : Word := if b then 1#32 <<< i else 0

/-- `ROM_BYTE(k)` (10_state.md R26). -/
def romByte (rom : RomCode) (k : Nat) : Byte := rom.extractLsb' (8 * k) 8

/-- Four bytes as a register's word, the first in bits 7:0 (20_memory.md R58). -/
def packBytes (b0 b1 b2 b3 : Byte) : Word :=
  b0.setWidth 32 ||| (b1.setWidth 32 <<< 8) ||| (b2.setWidth 32 <<< 16) ||| (b3.setWidth 32 <<< 24)

/-- `BUF[k]`, none past the end of BUF. -/
def State.bufByte (s : State) (k : Nat) : Option Byte := s.buf[k]?

/-- `BUF[k] <- v`; past the end of BUF there is no byte to write. -/
def State.setBufByte (s : State) (k : Nat) (v : Byte) : State := { s with buf := s.buf.set k v }

/-- The host's view of BUFk (R52, R58). -/
def State.bufWord (s : State) (k : Nat) : Word :=
  packBytes ((s.bufByte (4 * k)).getD 0) ((s.bufByte (4 * k + 1)).getD 0)
    ((s.bufByte (4 * k + 2)).getD 0) ((s.bufByte (4 * k + 3)).getD 0)

/-- A host write of BUFk (R52, R58). -/
def State.setBufWord (s : State) (k : Nat) (v : Word) : State :=
  (((s.setBufByte (4 * k) (v.extractLsb' 0 8)).setBufByte (4 * k + 1) (v.extractLsb' 8 8)).setBufByte
    (4 * k + 2) (v.extractLsb' 16 8)).setBufByte (4 * k + 3) (v.extractLsb' 24 8)

/-- The host's view of SRCH (R52). -/
def State.srchWord (s : State) : Word :=
  s.lastDisc.setWidth 32 ||| flagAt 7 s.lastDevFlag ||| (s.lastFamDisc.setWidth 32 <<< 8)

/-- A host write of SRCH (R52): any value of each field's width (10_state.md R25). -/
def State.setSrchWord (s : State) (v : Word) : State :=
  { s with
    lastDisc := v.extractLsb' 0 7
    lastDevFlag := v.getLsbD 7
    lastFamDisc := v.extractLsb' 8 7 }

/-- A host write of ROM_LO (R52). -/
def State.setRomLo (s : State) (v : Word) : State := { s with rom := s.rom.extractLsb' 32 32 ++ v }

/-- A host write of ROM_HI (R52). -/
def State.setRomHi (s : State) (v : Word) : State := { s with rom := v ++ s.rom.extractLsb' 0 32 }

/-- The register at an offset of the window, on an instance with `blockMax` bytes of BUF (R52, R54). -/
def regAt (blockMax off : Nat) : Reg :=
  match off with
  | 0x00 => .cmd
  | 0x04 => .status
  | 0x08 => .data
  | 0x0C => .crc
  | 0x10 => .srch
  | 0x14 => .romLo
  | 0x18 => .romHi
  | 0x1C => .info
  | 0x20 => .time .a
  | 0x24 => .time .b
  | 0x28 => .time .c
  | 0x2C => .time .d
  | 0x30 => .time .e
  | 0x34 => .time .f
  | 0x38 => .time .g
  | 0x3C => .time .h
  | 0x40 => .time .i
  | 0x44 => .time .j
  | _ => if 0x80 ≤ off ∧ off % 4 = 0 ∧ (off - 0x80) / 4 < blockMax / 4 then .buf ((off - 0x80) / 4) else .reserved

end Sys2Proof.Machine
end

