-- ==== Sys2Proof/Machine/Flags.lean ====
section
/-! DEFINITION. STATUS: its word, its sticky bits and what commands write to it (10_state.md R22, R34; 60_exceptions.md). -/

namespace Sys2Proof.Machine

open Sys2Proof

/-- The 3-bit code of an outcome (60_exceptions.md R221). -/
def Sres.code : Sres → BitVec 3
  | .none => 0
  | .found => 1
  | .exhausted => 2
  | .noPresence => 3
  | .busError => 4
  | .crcError => 5
  | .zeroFamily => 6

/-- The host's view of STATUS (10_state.md R22). -/
def State.statusWord (s : State) : Word :=
  flagAt 0 s.busy ||| flagAt 1 s.presence ||| flagAt 2 s.found ||| (s.sres.code.setWidth 32 <<< 4)
    ||| flagAt 8 s.ovr ||| flagAt 9 s.ill

/-- A host write of STATUS: OVR and ILL are cleared where 1 is written (R22). -/
def State.clearSticky (s : State) (v : Word) : State :=
  { s with ovr := s.ovr && !v.getLsbD 8, ill := s.ill && !v.getLsbD 9 }

/-- A host write was dropped while BUSY (60_exceptions.md R223). -/
def State.setOvr (s : State) : State := { s with ovr := true }

/-- An illegal command word was written while idle (R222). -/
def State.setIll (s : State) : State := { s with ill := true }

/-- `STATUS.PRESENCE <- p` (41_transactor.md R130). -/
def State.setPresence (s : State) (p : Bool) : State := { s with presence := p }

/-- `STATUS.SRES <- code(res)`, `STATUS.FOUND <- (res == FOUND)` (42_search.md R172). -/
def State.setOutcome (s : State) (res : Sres) : State := { s with sres := res, found := decide (res = .found) }

end Sys2Proof.Machine
end

