-- ==== Sys2Proof/Machine/Ops.lean ====
section
/-! DEFINITION. The shared operations: line primitives, the temporaries, the search state, acceptance, retirement, block reset.
OWT takes no exception (60_exceptions.md R220, R227, R228), so there is no entry and no return to share: what records an
error is in Flags.lean. -/

namespace Sys2Proof.Machine

open Sys2Proof

/-- A line event is performed: it joins the trace, and EVENT_LATENCY cycles pass before the next (40_timing.md R106). -/
def State.perform (s : State) (e : LineEvent) : State :=
  { s with trace := e :: s.trace, gap := s.params.eventLatency }

/-- `Drive()` (41_transactor.md R120). -/
def State.drive (s : State) : State := ({ s with line := true } : State).perform .drive

/-- `Release()` (R121). -/
def State.release (s : State) : State := ({ s with line := false } : State).perform .release

/-- `Wait(us)`: the wait counter is loaded (40_timing.md R102); LINE is unchanged (R123). The event joins the trace here,
with all its microseconds: DESIGN CHOICE (log 11). -/
def State.wait (s : State) (us : Nat) : State :=
  ({ s with waitLeft := us * s.params.cyclesPerUs } : State).perform (.wait us)

/-- `Delay(ticks)` is `Wait(ticks div 4)` (40_timing.md R100). -/
def State.delay (s : State) (ticks : Ticks) : State := s.wait (ticks.toNat / 4)

/-- The level the bus environment gives next while the line is released, constrained by nothing (41_transactor.md R122):
the next listed level, past the list a free value (log 3). -/
def State.nextLevel (s : State) : Bool :=
  match s.levels with
  | b :: _ => b
  | [] => Config.freeLevel s.sampleDraws

/-- The bus environment has given its next level. -/
def State.dropLevel (s : State) : State :=
  match s.levels with
  | _ :: rest => { s with levels := rest }
  | [] => { s with sampleDraws := s.sampleDraws + 1 }

/-- The level of the line now: 0 while the block pulls it, whatever the environment does (R120; log 15), else the
environment's. -/
def State.level (s : State) : Bool := if s.line then false else s.nextLevel

/-- The level has been taken: of a released line, one answer of the environment. -/
def State.answered (s : State) : State := if s.line then s else s.dropLevel

/-- A sampled level goes to its temporary. -/
def State.putSample (s : State) (into : Dest) (level : Bool) : State :=
  match into with
  | .presence => { s with temps := { s.temps with p := !level } }
  | .byteBit i => { s with temps := { s.temps with byte := setBit s.temps.byte i level } }
  | .idBit => { s with temps := { s.temps with idBit := level } }
  | .cmpBit => { s with temps := { s.temps with cmpBit := level } }

/-- `into <- Sample()` (R122). -/
def State.sample (s : State) (into : Dest) : State :=
  (s.answered.perform (.sample s.level)).putSample into s.level

/-- `ResetSearchState()`: CRC is not part of it (42_search.md R161). -/
def State.resetSearch (s : State) : State :=
  { s with lastDisc := 0, lastDevFlag := false, lastFamDisc := 0, rom := 0 }

/-- A legal word written while idle is accepted: `CUR <- word; BUSY <- 1` (30_encoding.md R86), and EVENT_LATENCY
cycles pass before the first event (40_timing.md R106), beside those before the completion of the command before. The two
gaps where 70_reset_and_hazards.md R256 speaks of one: DESIGN CHOICE (log 10). -/
def State.accept (s : State) (w : Word) : State :=
  { s with
    cur := w
    busy := true
    progress := none
    waitLeft := 0
    gap := s.params.eventLatency
    temps := Temps.fresh }

/-- The end of a command's completion: `BUSY <- 0`, and the sequencer is idle (10_state.md R30, R33). CUR keeps its
word: DESIGN CHOICE (log 8). -/
def State.retire (s : State) : State :=
  { s with
    busy := false
    progress := none
    waitLeft := 0
    gap := 0
    temps := Temps.fresh }

/-- The reset input is asserted (70_reset_and_hazards.md R250, R251): the command in progress stops where it is,
the line is released, and every state element takes its reset value; the parameters stay (10_state.md R35), and so
does what belongs to the outside world. A wait cut short stands whole in the trace: DESIGN CHOICE (log 11, log 18). -/
def State.blockReset (s : State) : State :=
  { State.resetOf s.params with
    buf := State.drawnBuf s.params.blockMax s.resetDraws
    inReset := true
    inputs := s.inputs
    levels := s.levels
    trace := s.trace
    replies := s.replies
    sampleDraws := s.sampleDraws
    readDraws := s.readDraws
    resetDraws := s.resetDraws + 1 }

/-- BUF has its BLOCK_MAX bytes (10_state.md R27): the form every operation on it keeps (log 19). -/
def Memory.wf (s : State) : Bool := decide (s.buf.length = s.params.blockMax)

end Sys2Proof.Machine
end

