-- ==== Sys2Proof/Machine/Pass.lean ====
section
/-! DEFINITION. The inner actions of a search pass (42_search.md R162 to R172). -/

namespace Sys2Proof.Machine

open Sys2Proof

/-- The pass ends here with an outcome; only the completion is left. -/
def State.stopWith (s : State) (res : Sres) : State := { s with temps := { s.temps with res := res, stop := true } }

/-- Step 1: an exhausted search ends at once and writes nothing (R163); else `CRC <- 0x00` (R164). -/
def State.passBegin (s : State) : State :=
  if s.lastDevFlag then s.stopWith .exhausted else { s with crc := 0 }

/-- Step 2: without presence the search state is reset and the pass ends (R164). -/
def State.presenceCheck (s : State) : State :=
  let s1 : State := { s with temps := { s.temps with pSeen := true } }
  if s.temps.p then s1 else s1.resetSearch.stopWith .noPresence

/-- `last_zero <- 0; ok <- 1; n <- 1` (R162 step 4). -/
def State.loopBegin (s : State) : State :=
  { s with temps := { s.temps with lastZero := 0, ok := true, n := 1 } }

/-- Steps 5 to 7: the outcome of a pass that reached step 4 (R170, R171). -/
def State.passEnd (s : State) : State :=
  if s.temps.ok = false then s.resetSearch.stopWith .busError
  else if s.crc ≠ 0 then s.resetSearch.stopWith .crcError
  else
    let s1 : State := { s with lastDisc := s.temps.lastZero, lastDevFlag := decide (s.temps.lastZero = 0) }
    if romByte s.rom 0 = 0 then s1.resetSearch.stopWith .zeroFamily else s1.stopWith .found

/-- The direction at a position where both reads gave 0 (R166, step 4d). -/
def State.branch (s : State) : Bool :=
  if s.temps.n < s.lastDisc then s.rom.getLsbD (s.temps.n.toNat - 1)
  else decide (s.temps.n = s.lastDisc)

/-- The bookkeeping of a 0 chosen at a discrepancy (R167, step 4d). -/
def State.recordZero (s : State) : State :=
  { s with
    lastFamDisc := if s.temps.n < 9 then s.temps.n else s.lastFamDisc
    temps := { s.temps with lastZero := s.temps.n } }

/-- `dir <- d; ROM[n-1] <- d` (R168, step 4e). -/
def State.take (s : State) (d : Bool) : State :=
  { s with rom := setBit s.rom (s.temps.n.toNat - 1) d, temps := { s.temps with dir := d } }

/-- Steps 4b to 4e up to the write slot (R165 to R168): both reads 1 abort the pass and fall through to step 5;
reads that differ force the direction; two zeros are a discrepancy. -/
def State.direction (s : State) : State :=
  if s.temps.idBit && s.temps.cmpBit then
    ({ s with temps := { s.temps with ok := false } } : State).passEnd
  else if s.temps.idBit != s.temps.cmpBit then s.take s.temps.idBit
  else if s.branch then s.take true
  else s.recordZero.take false

/-- Step 4f, the fold of a completed ROM byte (R169), and `n <- n + 1`. -/
def State.advance (s : State) : State :=
  { s with
    crc := if s.temps.n.toNat % 8 = 0 then crc8Update s.crc (romByte s.rom (s.temps.n.toNat / 8 - 1)) else s.crc
    temps := { s.temps with n := s.temps.n + 1 } }

/-- What a search command's completion writes (R172). -/
def State.writeSearchResult (s : State) : State :=
  (if s.temps.pSeen then s.setPresence s.temps.p else s).setOutcome s.temps.res

end Sys2Proof.Machine
end

