-- ==== Sys2Proof/Machine/Sequencer.lean ====
section
/-! DEFINITION. How the sequencer runs a command: one element at a time, and whole (10_state.md R30, R32). -/

namespace Sys2Proof.Machine

open Sys2Proof

/-- An inner action of a command. -/
def State.doAct (s : State) : Act → State
  | .clearByte => { s with temps := { s.temps with byte := 0 } }
  | .storeByte k => s.setBufByte k s.temps.byte
  | .resetSearch => s.resetSearch
  | .passBegin => s.passBegin
  | .presenceCheck => s.presenceCheck
  | .loopBegin => s.loopBegin
  | .direction => s.direction
  | .advance => s.advance
  | .passEnd => s.passEnd

/-- One element of a command's progress. -/
def State.doOp (s : State) : Op → State
  | .drive => s.drive
  | .release => s.release
  | .delay t => s.delay t
  | .delayDir one zero => s.delay (if s.temps.dir then one else zero)
  | .sample into => s.sample into
  | .act a => s.doAct a

/-- The elements in order, until the pass has met an exit. -/
def runOps : List Op → State → State
  | [], s => s
  | op :: rest, s => if s.temps.stop then s else runOps rest (s.doOp op)

/-- The completion: the command's results and `BUSY <- 0` in one step (10_state.md R30, 20_memory.md R60). -/
def State.complete (s : State) : Completion → State
  | .nothing => s.retire
  | .presence => (s.setPresence s.temps.p).retire
  | .data => ({ s with data := s.temps.byte } : State).retire
  | .crc byte => ({ s with crc := crc8Update s.crc byte } : State).retire
  | .search => s.writeSearchResult.retire

/-- What is left of a command, run to its completion. -/
def State.finish (s : State) (p : Program) : State := (runOps p.ops s).complete p.result

/-- A command run whole, from its first event to its completion, with nothing between (log 6). -/
def runCommand (p : Program) (s : State) : Host.Outcome State Fault Refusal :=
  .next (({ s with temps := Temps.fresh } : State).finish p)

/-- One move of a sequencer that has its command's progress: a cycle of the wait (40_timing.md R102), else a cycle of
the gap (R106; before the completion too: DESIGN CHOICE beside R256, log 10), else the next element, else the
completion. -/
def State.advanceProgram (s : State) (p : Program) : State :=
  if 0 < s.waitLeft then { s with waitLeft := s.waitLeft - 1 }
  else if 0 < s.gap then { s with gap := s.gap - 1 }
  else if s.temps.stop then s.complete p.result
  else match p.ops with
    | [] => s.complete p.result
    | op :: rest => { s.doOp op with progress := some { p with ops := rest } }

end Sys2Proof.Machine
end

