-- ==== Sys2Proof/Machine/Crc.lean ====
section
/-! DEFINITION. The CRC8 validator's command (43_crc8.md R203). -/

namespace Sys2Proof.Machine

open Sys2Proof

/-- CRC8_UPDATE: no line event, one write at the completion (R203). -/
def crc8UpdateProgram (byte : Byte) (_ : State) : Program := ⟨[], .crc byte⟩

/-- CRC8_UPDATE: fold one byte into the accumulator (R203). -/
def execCrc8Update (byte : Byte) (s : State) : Host.Outcome State Fault Refusal :=
  runCommand (crc8UpdateProgram byte s) s

end Sys2Proof.Machine
end

