-- ==== Sys2Proof/Machine/Transactor.lean ====
section
/-! DEFINITION. The bit/byte transactor: its slots and its seven commands (41_transactor.md). -/

namespace Sys2Proof.Machine

open Sys2Proof

/-- `ResetPresence()` (R124). -/
def resetPresenceOps (p : Profile) : List Op :=
  [.drive, .delay p.tH, .release, .delay p.tI, .sample .presence, .delay p.tJ]

/-- `WriteBit(b)` (R125). -/
def writeBitOps (p : Profile) (b : Bool) : List Op :=
  if b then [.drive, .delay p.tA, .release, .delay p.tB] else [.drive, .delay p.tC, .release, .delay p.tD]

/-- `WriteBit(dir)`, the bit being the pass's `dir` (R125, 42_search.md R168). -/
def writeDirOps (p : Profile) : List Op :=
  [.drive, .delayDir p.tA p.tC, .release, .delayDir p.tB p.tD]

/-- `into <- ReadBit()` (R126). -/
def readBitOps (p : Profile) (into : Dest) : List Op :=
  [.drive, .delay p.tA, .release, .delay p.tE, .sample into, .delay p.tF]

/-- `WriteByte(v)`, least significant bit first (R127). -/
def writeByteOps (p : Profile) (v : Byte) : List Op :=
  (List.range 8).flatMap fun i => writeBitOps p (v.getLsbD i)

/-- `r <- ReadByte()`, least significant bit first (R128). -/
def readByteOps (p : Profile) : List Op :=
  .act .clearByte :: (List.range 8).flatMap fun i => readBitOps p (.byteBit i)

/-- The slot of bit `i` of `TouchByte(v)`: a read where the bit is 1, else a write of 0 (R129). -/
def touchBitOps (p : Profile) (v : Byte) (i : Nat) : List Op :=
  if v.getLsbD i then readBitOps p (.byteBit i) else writeBitOps p false

/-- `r <- TouchByte(v)`, least significant bit first (R129). -/
def touchByteOps (p : Profile) (v : Byte) : List Op :=
  .act .clearByte :: (List.range 8).flatMap fun i => touchBitOps p v i

/-- The touches of a list of bytes that stand in BUF from index `k` on (R136). -/
def touchBufOps (p : Profile) : Nat → List Byte → List Op
  | _, [] => []
  | k, v :: rest => touchByteOps p v ++ .act (.storeByte k) :: touchBufOps p (k + 1) rest

/-- OW_RESET (R130). -/
def owResetProgram (s : State) : Program := ⟨resetPresenceOps s.params.profile, .presence⟩

/-- OW_WRITE_BIT (R131). -/
def owWriteBitProgram (bit : Bool) (s : State) : Program := ⟨writeBitOps s.params.profile bit, .nothing⟩

/-- OW_READ_BIT: `zext_8` of the sample is bit 0 of a cleared byte (R132). -/
def owReadBitProgram (s : State) : Program :=
  ⟨.act .clearByte :: readBitOps s.params.profile (.byteBit 0), .data⟩

/-- OW_WRITE_BYTE (R133). -/
def owWriteByteProgram (byte : Byte) (s : State) : Program := ⟨writeByteOps s.params.profile byte, .nothing⟩

/-- OW_READ_BYTE (R134). -/
def owReadByteProgram (s : State) : Program := ⟨readByteOps s.params.profile, .data⟩

/-- OW_TOUCH_BYTE (R135). -/
def owTouchByteProgram (byte : Byte) (s : State) : Program := ⟨touchByteOps s.params.profile byte, .data⟩

/-- OW_BLOCK_TOUCH of a legal length (R136). -/
def owBlockTouchProgram (len : Byte) (s : State) : Program :=
  ⟨touchBufOps s.params.profile 0 (s.buf.take len.toNat), .nothing⟩

/-- OW_RESET: reset pulse and presence detect (R130). -/
def execOwReset (s : State) : Host.Outcome State Fault Refusal := runCommand (owResetProgram s) s

/-- OW_WRITE_BIT: send one bit (R131). -/
def execOwWriteBit (bit : Bool) (s : State) : Host.Outcome State Fault Refusal :=
  runCommand (owWriteBitProgram bit s) s

/-- OW_READ_BIT: read one bit (R132). -/
def execOwReadBit (s : State) : Host.Outcome State Fault Refusal := runCommand (owReadBitProgram s) s

/-- OW_WRITE_BYTE: send one byte (R133). -/
def execOwWriteByte (byte : Byte) (s : State) : Host.Outcome State Fault Refusal :=
  runCommand (owWriteByteProgram byte s) s

/-- OW_READ_BYTE: read one byte (R134). -/
def execOwReadByte (s : State) : Host.Outcome State Fault Refusal := runCommand (owReadByteProgram s) s

/-- OW_TOUCH_BYTE: send a byte and sample the bits sent as 1 (R135). -/
def execOwTouchByte (byte : Byte) (s : State) : Host.Outcome State Fault Refusal :=
  runCommand (owTouchByteProgram byte s) s

/-- OW_BLOCK_TOUCH: touch the first `len` bytes of BUF in place (R136). A length over BLOCK_MAX never starts: it is
illegal and sets ILL (30_encoding.md R84; log 17). -/
def execOwBlockTouch (len : Byte) (s : State) : Host.Outcome State Fault Refusal :=
  if len.toNat ≤ s.params.blockMax then runCommand (owBlockTouchProgram len s) s else .next s.setIll.retire

end Sys2Proof.Machine
end

