-- ==== Sys2Proof/Machine/Search.lean ====
section
/-! DEFINITION. The ROM search engine: the pass and its two commands (42_search.md). -/

namespace Sys2Proof.Machine

open Sys2Proof

/-- One position of step 4: two read slots, the direction, its write slot, the fold (R162 steps 4a to 4f). -/
def positionOps (p : Profile) : List Op :=
  readBitOps p .idBit ++ (readBitOps p .cmpBit ++ (.act .direction :: (writeDirOps p ++ [.act .advance])))

/-- The positions of step 4, `k` of them. -/
def positionsOps (p : Profile) : Nat → List Op
  | 0 => []
  | k + 1 => positionOps p ++ positionsOps p k

/-- `SearchPass()` (R162): step 1, step 2, step 3 (the byte 0xF0), the 64 positions of step 4, steps 5 to 7. -/
def searchPassOps (p : Profile) : List Op :=
  .act .passBegin :: (resetPresenceOps p ++ (.act .presenceCheck :: (writeByteOps p 0xF0 ++
    (.act .loopBegin :: (positionsOps p 64 ++ [.act .passEnd])))))

/-- OW_SEARCH_FIRST (R173). -/
def owSearchFirstProgram (s : State) : Program :=
  ⟨.act .resetSearch :: searchPassOps s.params.profile, .search⟩

/-- OW_SEARCH_NEXT (R174). -/
def owSearchNextProgram (s : State) : Program := ⟨searchPassOps s.params.profile, .search⟩

/-- OW_SEARCH_FIRST: start an enumeration (R173). -/
def execOwSearchFirst (s : State) : Host.Outcome State Fault Refusal := runCommand (owSearchFirstProgram s) s

/-- OW_SEARCH_NEXT: continue an enumeration (R174). -/
def execOwSearchNext (s : State) : Host.Outcome State Fault Refusal := runCommand (owSearchNextProgram s) s

end Sys2Proof.Machine
end

