-- ==== Sys2Proof/Machine/Timing.lean ====
section
/-! DEFINITION. The timing pulse generator's command (40_timing.md R107). -/

namespace Sys2Proof.Machine

open Sys2Proof

/-- DELAY: one wait (R107). -/
def delayProgram (ticks : Ticks) (_ : State) : Program := ⟨[.delay ticks], .nothing⟩

/-- DELAY: wait a number of ticks with the line as it is, which is released (R107). -/
def execDelay (ticks : Ticks) (s : State) : Host.Outcome State Fault Refusal := runCommand (delayProgram ticks s) s

end Sys2Proof.Machine
end

