-- ==== Sys2Proof/Syntax.lean ====
section
/-! DEFINITION. The eleven commands of spec/opcode_table.json (30_encoding.md R81, R82). -/

namespace Sys2Proof

/-- A command with the operands of 30_encoding.md R81. -/
inductive Instr where
  /-- OW_RESET (41_transactor.md R130). -/
  | owReset
  /-- OW_WRITE_BIT, `bit = IMM8[0]` (R131). -/
  | owWriteBit (bit : Bool)
  /-- OW_READ_BIT (R132). -/
  | owReadBit
  /-- OW_WRITE_BYTE, `byte = IMM8` (R133). -/
  | owWriteByte (byte : Byte)
  /-- OW_READ_BYTE (R134). -/
  | owReadByte
  /-- OW_TOUCH_BYTE, `byte = IMM8` (R135). -/
  | owTouchByte (byte : Byte)
  /-- OW_BLOCK_TOUCH, `len = IMM8`, a count of bytes (R136). -/
  | owBlockTouch (len : Byte)
  /-- OW_SEARCH_FIRST (42_search.md R173). -/
  | owSearchFirst
  /-- OW_SEARCH_NEXT (R174). -/
  | owSearchNext
  /-- CRC8_UPDATE, `byte = IMM8` (43_crc8.md R203). -/
  | crc8Update (byte : Byte)
  /-- DELAY, `ticks = IMM16` (40_timing.md R107). -/
  | delay (ticks : Ticks)
  deriving DecidableEq, Repr

/-- The mnemonics of the assembler (30_encoding.md R87). -/
inductive AsmName where
  | owDotReset | owDotWbit | owDotRbit | owDotWbyte | owDotRbyte | owDotTouch | owDotBlock
  | owDotFirst | owDotNext | crc8 | delay
  deriving DecidableEq, Repr

/-- Why a command word is illegal (30_encoding.md R84). -/
inductive Illegal where
  /-- OP is 0x00 or 0x0C to 0xFF. -/
  | noSuchOp (op : Byte)
  /-- OW_BLOCK_TOUCH with `IMM8 > BLOCK_MAX`. -/
  | blockTooLong (len : Byte)
  deriving DecidableEq, Repr

end Sys2Proof
end

