-- ==== Sys2Proof/Machine/Dispatch.lean ====
section
/-! DEFINITION. The meaning of every command, one arm each. -/

namespace Sys2Proof.Machine

open Sys2Proof

def exec (i : Instr) (s : State) : Host.Outcome State Fault Refusal :=
  match i with
  | .owReset => Sys2Proof.Machine.execOwReset s
  | .owWriteBit bit => Sys2Proof.Machine.execOwWriteBit bit s
  | .owReadBit => Sys2Proof.Machine.execOwReadBit s
  | .owWriteByte byte => Sys2Proof.Machine.execOwWriteByte byte s
  | .owReadByte => Sys2Proof.Machine.execOwReadByte s
  | .owTouchByte byte => Sys2Proof.Machine.execOwTouchByte byte s
  | .owBlockTouch len => Sys2Proof.Machine.execOwBlockTouch len s
  | .owSearchFirst => Sys2Proof.Machine.execOwSearchFirst s
  | .owSearchNext => Sys2Proof.Machine.execOwSearchNext s
  | .crc8Update byte => Sys2Proof.Machine.execCrc8Update byte s
  | .delay ticks => Sys2Proof.Machine.execDelay ticks s

end Sys2Proof.Machine
end

