-- ==== Sys2Proof/WellFormed.lean ====
section
/-! DEFINITION. Which commands an instance with a given BLOCK_MAX has (30_encoding.md R84, R85). -/

namespace Sys2Proof

/-- A command is well formed but for an over-long block touch (30_encoding.md R84). -/
def Instr.wf (blockMax : Nat) : Instr → Bool
  | .owReset => true
  | .owWriteBit _ => true
  | .owReadBit => true
  | .owWriteByte _ => true
  | .owReadByte => true
  | .owTouchByte _ => true
  | .owBlockTouch len => decide (len.toNat ≤ blockMax)
  | .owSearchFirst => true
  | .owSearchNext => true
  | .crc8Update _ => true
  | .delay _ => true

end Sys2Proof
end

