-- ==== Sys2Proof/Decode.lean ====
section
/-! DEFINITION. Command words: decoding (total), encoding and the assembler's words (30_encoding.md). -/

namespace Sys2Proof

/-- OP, bits 7:0 (30_encoding.md R80). -/
def opField (w : Word) : Byte := w.extractLsb' 0 8

/-- IMM8, bits 15:8 (R80). -/
def imm8Field (w : Word) : Byte := w.extractLsb' 8 8

/-- IMM16, bits 31:16 (R80). -/
def imm16Field (w : Word) : Ticks := w.extractLsb' 16 16

/-- The command a word stands for, or why it is illegal (R81, R82, R84): OP alone selects it, and the fields a
command does not use are ignored (R83). -/
def decode (blockMax : Nat) (w : Word) : Except Illegal Instr :=
  match (opField w).toNat with
  | 0x01 => .ok .owReset
  | 0x02 => .ok (.owWriteBit ((imm8Field w).getLsbD 0))
  | 0x03 => .ok .owReadBit
  | 0x04 => .ok (.owWriteByte (imm8Field w))
  | 0x05 => .ok .owReadByte
  | 0x06 => .ok (.owTouchByte (imm8Field w))
  | 0x07 =>
    if (imm8Field w).toNat ≤ blockMax then .ok (.owBlockTouch (imm8Field w))
    else .error (.blockTooLong (imm8Field w))
  | 0x08 => .ok .owSearchFirst
  | 0x09 => .ok .owSearchNext
  | 0x0A => .ok (.crc8Update (imm8Field w))
  | 0x0B => .ok (.delay (imm16Field w))
  | _ => .error (.noSuchOp (opField w))

/-- `Legal(w)` as 30_encoding.md R86 writes it. -/
def legal (blockMax : Nat) (w : Word) : Bool :=
  (decide (0x01 ≤ (opField w).toNat) && decide ((opField w).toNat ≤ 0x0B))
    && !(decide ((opField w).toNat = 0x07) && decide (blockMax < (imm8Field w).toNat))

/-- A word from its three fields (R80). -/
def wordOfFields (op imm8 : Byte) (imm16 : Ticks) : Word :=
  op.setWidth 32 ||| (imm8.setWidth 32 <<< 8) ||| (imm16.setWidth 32 <<< 16)

/-- The word of a command, its unused fields zero (R82, R83, R87). -/
def encode : Instr → Word
  | .owReset => wordOfFields 0x01 0 0
  | .owWriteBit bit => wordOfFields 0x02 (if bit then 1 else 0) 0
  | .owReadBit => wordOfFields 0x03 0 0
  | .owWriteByte byte => wordOfFields 0x04 byte 0
  | .owReadByte => wordOfFields 0x05 0 0
  | .owTouchByte byte => wordOfFields 0x06 byte 0
  | .owBlockTouch len => wordOfFields 0x07 len 0
  | .owSearchFirst => wordOfFields 0x08 0 0
  | .owSearchNext => wordOfFields 0x09 0 0
  | .crc8Update byte => wordOfFields 0x0A byte 0
  | .delay ticks => wordOfFields 0x0B 0 ticks

/-- The bits of a word that its command uses (R81, R83): OP, and the operand's field or bit. -/
def usedMask (w : Word) : Word :=
  match (opField w).toNat with
  | 0x02 => 0x000001FF
  | 0x04 | 0x06 | 0x07 | 0x0A => 0x0000FFFF
  | 0x0B => 0xFFFF00FF
  | _ => 0x000000FF

/-- An operand an assembler accepts is at most `top` (R87). -/
def asmOperand (top : Nat) : Option Nat → Option Nat
  | some n => if n ≤ top then some n else none
  | none => none

/-- A mnemonic that takes no operand refuses one (R87). -/
def asmPlain (op : Byte) : Option Nat → Option Word
  | none => some (wordOfFields op 0 0)
  | some _ => none

/-- A mnemonic whose operand goes to IMM8 (R87). -/
def asmImm8 (op : Byte) (top : Nat) (operand : Option Nat) : Option Word :=
  (asmOperand top operand).map fun n => wordOfFields op (BitVec.ofNat 8 n) 0

/-- The assembler's word for a line, none where it refuses the line (30_encoding.md R87). -/
def assemble (blockMax : Nat) (name : AsmName) (operand : Option Nat) : Option Word :=
  match name with
  | .owDotReset => asmPlain 0x01 operand
  | .owDotWbit => asmImm8 0x02 1 operand
  | .owDotRbit => asmPlain 0x03 operand
  | .owDotWbyte => asmImm8 0x04 255 operand
  | .owDotRbyte => asmPlain 0x05 operand
  | .owDotTouch => asmImm8 0x06 255 operand
  | .owDotBlock => asmImm8 0x07 blockMax operand
  | .owDotFirst => asmPlain 0x08 operand
  | .owDotNext => asmPlain 0x09 operand
  | .crc8 => asmImm8 0x0A 255 operand
  | .delay => (asmOperand 65535 operand).map fun n => wordOfFields 0x0B 0 (BitVec.ofNat 16 n)

/-- The 32-bit word of an instruction's bits, the bits above `nbits` zero (a command is one word: R80). -/
def tableWord (nbits w : Nat) : Word := BitVec.ofNat 32 (w % 2 ^ nbits)

/-- What the decoder of the default instance (BLOCK_MAX 16; log 2) reads from an instruction's bits. -/
def decodeTableWord (nbits w : Nat) : Option Instr :=
  match decode Config.defaultParams.blockMax (tableWord nbits w) with
  | .ok i => some i
  | .error _ => none

end Sys2Proof
end

