-- ==== Sys2Proof/Machine/HostPort.lean ====
section
/-! DEFINITION. The host's accesses to the register window (20_memory.md), and host programs (30_encoding.md R88). -/

namespace Sys2Proof.Machine

open Sys2Proof

/-- The offset of a host access, or why the model has no step for it (20_memory.md R51, R53;
70_reset_and_hazards.md R250; log 12). -/
def State.offsetOf (s : State) (addr bytes : Nat) : Except Refusal Nat :=
  if addr < s.params.owBase ∨ s.params.owBase + 256 ≤ addr then .error .addressOutsideWindow
  else if s.inReset then .error .accessDuringReset
  else if bytes ≠ 4 ∨ (addr - s.params.owBase) % 4 ≠ 0 then .error .undefinedAccess
  else .ok (addr - s.params.owBase)

/-- The value of a register as the host reads it while idle (20_memory.md R52). -/
def State.readReg (s : State) : Reg → Word
  | .cmd => 0
  | .status => s.statusWord
  | .data => s.data.setWidth 32
  | .crc => s.crc.setWidth 32
  | .srch => s.srchWord
  | .romLo => s.rom.extractLsb' 0 32
  | .romHi => s.rom.extractLsb' 32 32
  | .info => (BitVec.ofNat 8 s.params.blockMax).setWidth 32
  | .time k => (s.params.profile.const k).setWidth 32
  | .buf k => s.bufWord k
  | .reserved => 0

/-- The registers whose value a host read does not get while BUSY is 1 (70_reset_and_hazards.md R255). -/
def Reg.freeWhileBusy : Reg → Bool
  | .cmd => false
  | .status => false
  | .data => true
  | .crc => true
  | .srch => true
  | .romLo => true
  | .romHi => true
  | .info => false
  | .time _ => false
  | .buf _ => true
  | .reserved => false

/-- A host read returns a word (R255): a free draw of a result register while BUSY, else the register's value. It
changes no state of OWT (20_memory.md R56). -/
def State.hostReadReg (s : State) (r : Reg) : State :=
  if s.busy && r.freeWhileBusy then
    { s with replies := Config.freeWord s.readDraws :: s.replies, readDraws := s.readDraws + 1 }
  else { s with replies := s.readReg r :: s.replies }

/-- A write of CMD while idle: a legal word is accepted, any other sets ILL (30_encoding.md R84, R86). -/
def State.submit (s : State) (w : Word) : State :=
  if legal s.params.blockMax w then s.accept w else s.setIll

/-- A host write while idle (20_memory.md R52, R54, R57). -/
def State.writeRegIdle (s : State) (r : Reg) (v : Word) : State :=
  match r with
  | .cmd => s.submit v
  | .status => s.clearSticky v
  | .data => s
  | .crc => { s with crc := v.extractLsb' 0 8 }
  | .srch => s.setSrchWord v
  | .romLo => s.setRomLo v
  | .romHi => s.setRomHi v
  | .info => s
  | .time _ => s
  | .buf k => s.setBufWord k v
  | .reserved => s

/-- A host write while BUSY is 1 (70_reset_and_hazards.md R254): STATUS takes effect, a reserved offset has no
effect, any other is dropped and sets OVR. -/
def State.writeRegBusy (s : State) (r : Reg) (v : Word) : State :=
  match r with
  | .status => s.clearSticky v
  | .reserved => s
  | .cmd => s.setOvr
  | .data => s.setOvr
  | .crc => s.setOvr
  | .srch => s.setOvr
  | .romLo => s.setOvr
  | .romHi => s.setOvr
  | .info => s.setOvr
  | .time _ => s.setOvr
  | .buf _ => s.setOvr

/-- A host write (30_encoding.md R86, 70_reset_and_hazards.md R254). -/
def State.hostWriteReg (s : State) (r : Reg) (v : Word) : State :=
  if s.busy then s.writeRegBusy r v else s.writeRegIdle r v

/-- `HostRead(addr - OW_BASE)` (00_scope.md R8). -/
def State.hostRead (s : State) (addr bytes : Nat) : Host.Outcome State Fault Refusal :=
  match s.offsetOf addr bytes with
  | .ok off => .next (s.hostReadReg (regAt s.params.blockMax off))
  | .error r => .refused r

/-- `HostWrite(addr - OW_BASE, v)` (00_scope.md R8). -/
def State.hostWrite (s : State) (addr bytes : Nat) (v : Word) : Host.Outcome State Fault Refusal :=
  match s.offsetOf addr bytes with
  | .ok off => .next (s.hostWriteReg (regAt s.params.blockMax off) v)
  | .error r => .refused r

/-- A line of a host program (30_encoding.md R88). -/
inductive HostLine where
  /-- `W off, v`. -/
  | w (off : Nat) (v : Word)
  /-- `R off -> name`; the result joins `replies`. -/
  | r (off : Nat)
  /-- `POLL`. -/
  | poll
  /-- `X cmd`. -/
  | x (i : Instr)
  deriving DecidableEq, Repr

/-- The inputs of a line on an instance at `base`. `POLL` is the read of STATUS that ends it: the command has
completed by then, and the reads before it, with BUSY 1, changed nothing (R88, 20_memory.md R56; log 14). -/
def HostLine.inputs (base : Nat) : HostLine → List Input
  | .w off v => [.hostWrite (base + off) 4 v]
  | .r off => [.hostRead (base + off) 4]
  | .poll => [.run, .hostRead (base + 0x04) 4]
  | .x i => [.hostWrite (base + 0x00) 4 (encode i), .run, .hostRead (base + 0x04) 4]

end Sys2Proof.Machine
end

