-- ==== Sys2Proof/Machine/Turn.lean ====
section
/-! DEFINITION. One step of the machine: which agent moves, and what it does (10_state.md R20, R30). -/

namespace Sys2Proof.Machine

open Sys2Proof

/-- The program of a command accepted in `s`: the same one its meaning runs. -/
def programOf (i : Instr) (s : State) : Program :=
  match i with
  | .owReset => owResetProgram s
  | .owWriteBit bit => owWriteBitProgram bit s
  | .owReadBit => owReadBitProgram s
  | .owWriteByte byte => owWriteByteProgram byte s
  | .owReadByte => owReadByteProgram s
  | .owTouchByte byte => owTouchByteProgram byte s
  | .owBlockTouch len => owBlockTouchProgram len s
  | .owSearchFirst => owSearchFirstProgram s
  | .owSearchNext => owSearchNextProgram s
  | .crc8Update byte => crc8UpdateProgram byte s
  | .delay ticks => delayProgram ticks s

/-- The command in CUR, where it is a legal one. -/
def State.command (s : State) : Except Illegal Instr := decode s.params.blockMax s.cur

/-- One move of the sequencer (10_state.md R30, R32): idle, it does nothing (60_exceptions.md R234); with a command
just accepted it takes up that command's events; else one move along them. -/
def State.sequencerMove (s : State) : Host.Outcome State Fault Refusal :=
  if s.inReset || !s.busy then .next s
  else match s.progress with
    | some p => .next (s.advanceProgram p)
    | none =>
      match s.command with
      | .ok i => .next { s with progress := some (programOf i s), temps := Temps.fresh }
      | .error _ => .fault .sequencerStuck

/-- The command in progress runs to its completion with nothing between: a command just accepted runs whole, by its
meaning; one that has begun runs the rest of its events. Idle, nothing happens (60_exceptions.md R234). -/
def State.runToCompletion (s : State) : Host.Outcome State Fault Refusal :=
  if s.inReset || !s.busy then .next s
  else match s.progress with
    | some p => .next (s.finish p)
    | none =>
      match s.command with
      | .ok i => exec i s
      | .error _ => .fault .sequencerStuck

/-- What the next input does; with none listed, the command in progress runs to its completion (log 6). -/
def State.takeTurn (s : State) : Host.Outcome State Fault Refusal :=
  match s.inputs with
  | [] => s.runToCompletion
  | .hostRead addr bytes :: rest => ({ s with inputs := rest } : State).hostRead addr bytes
  | .hostWrite addr bytes v :: rest => ({ s with inputs := rest } : State).hostWrite addr bytes v
  | .resetAssert :: rest => .next ({ s with inputs := rest } : State).blockReset
  | .resetRelease :: rest => .next { s with inputs := rest, inReset := false }
  | .sequencer :: rest => ({ s with inputs := rest } : State).sequencerMove
  | .run :: rest => ({ s with inputs := rest } : State).runToCompletion

/-- The state in which a command word has just been accepted and nothing comes between it and its run (log 14). -/
def State.placeCommand (s : State) (w : Word) : State :=
  { s.accept w with inReset := false, inputs := .run :: s.inputs }

end Sys2Proof.Machine
end

