-- ==== Sys2Proof/Machine/Step.lean ====
section
/-! DEFINITION. The step of the machine, and a command placed where the step finds it. -/

namespace Sys2Proof.Machine

open Sys2Proof

/-- One step: the next agent's turn. -/
def step (s : State) : Host.Outcome State Fault Refusal := s.takeTurn

/-- `s` with an instruction's word accepted in CUR, to be run by the next step (log 14). -/
def State.withFetchWord (s : State) (nbits w : Nat) : State := s.placeCommand (tableWord nbits w)

end Sys2Proof.Machine
end

