-- ==== Sys2Proof/Safety.lean ====
section
/-! DEFINITION. The terms claims are stated in: the line events of each slot, the spec's subroutines as pseudocode over the
state, sequences of sequencer moves, and the invariant of a safe run. The machine uses none of these. -/

namespace Sys2Proof.Machine

open Sys2Proof

/-! ## The bus environment's coming answers -/

/-- The next `k` levels, in the order they are taken. -/
def State.coming : Nat → State → List Bool
  | 0, _ => []
  | k + 1, s => s.nextLevel :: State.coming k s.dropLevel

/-- The environment has given its next `k` levels. -/
def State.afterLevels : Nat → State → State
  | 0, s => s
  | k + 1, s => State.afterLevels k s.dropLevel

/-! ## Line events -/

/-- The events of `ResetPresence()` that samples `b` (R124). -/
def resetEvents (p : Profile) (b : Bool) : List LineEvent :=
  [.drive, .wait (p.tH.toNat / 4), .release, .wait (p.tI.toNat / 4), .sample b, .wait (p.tJ.toNat / 4)]

/-- The events of `WriteBit(b)` (R125). -/
def writeEvents (p : Profile) : Bool → List LineEvent
  | true => [.drive, .wait (p.tA.toNat / 4), .release, .wait (p.tB.toNat / 4)]
  | false => [.drive, .wait (p.tC.toNat / 4), .release, .wait (p.tD.toNat / 4)]

/-- The events of `ReadBit()` that samples `b` (R126). -/
def readEvents (p : Profile) (b : Bool) : List LineEvent :=
  [.drive, .wait (p.tA.toNat / 4), .release, .wait (p.tE.toNat / 4), .sample b, .wait (p.tF.toNat / 4)]

/-- The bits of a byte in wire order (20_memory.md R59). -/
def wireBits (v : Byte) : List Bool := (List.range 8).map fun i => v.getLsbD i

/-- A position that a pass completed: its two reads and the direction it wrote (42_search.md R165, R168). -/
structure PassPosition where
  idBit : Bool
  cmpBit : Bool
  dir : Bool
  deriving DecidableEq, Repr

/-- The events of a completed position: two read slots and the write slot (42_search.md R162 steps 4a and 4e). -/
def PassPosition.events (p : Profile) (x : PassPosition) : List LineEvent :=
  readEvents p x.idBit ++ readEvents p x.cmpBit ++ writeEvents p x.dir

/-- The events of a pass that saw a device: the reset, the byte 0xF0, the completed positions and, where the
pass aborts, the two reads of 1 (42_search.md R164, R165, R168). -/
def passEvents (p : Profile) (xs : List PassPosition) (aborted : Bool) : List LineEvent :=
  resetEvents p false
    ++ (wireBits 0xF0).flatMap (writeEvents p)
    ++ xs.flatMap (PassPosition.events p)
    ++ if aborted then readEvents p true ++ readEvents p true else []

/-- Microseconds of an event (70_reset_and_hazards.md R261). -/
def LineEvent.us : LineEvent → Nat
  | .wait us => us
  | .drive => 0
  | .release => 0
  | .sample _ => 0

/-- Microseconds of a list of events (R261). -/
def duration (es : List LineEvent) : Nat := (es.map LineEvent.us).sum

/-- Number of 1 bits of a byte. -/
def ones (v : Byte) : Nat := (wireBits v).countP fun b => b

/-! ## The subroutines of the spec, as their pseudocode -/

/-- `s <- Sample()`: the level and the state after (41_transactor.md R122). -/
def Pseudo.sample (s : State) : Bool × State := (s.level, s.answered.perform (.sample s.level))

/-- `ResetPresence() -> p` (R124). -/
def Pseudo.resetPresence (s : State) : Bool × State :=
  let prof := s.params.profile
  let x := Pseudo.sample (((s.drive.delay prof.tH).release).delay prof.tI)
  (!x.1, x.2.delay prof.tJ)

/-- `WriteBit(b)` (R125). -/
def Pseudo.writeBit (b : Bool) (s : State) : State :=
  let prof := s.params.profile
  if b then ((s.drive.delay prof.tA).release).delay prof.tB
  else ((s.drive.delay prof.tC).release).delay prof.tD

/-- `ReadBit() -> s` (R126). -/
def Pseudo.readBit (s : State) : Bool × State :=
  let prof := s.params.profile
  let x := Pseudo.sample (((s.drive.delay prof.tA).release).delay prof.tE)
  (x.1, x.2.delay prof.tF)

/-- `WriteByte(v)` (R127). -/
def Pseudo.writeByte (v : Byte) (s : State) : State :=
  (List.range 8).foldl (fun s i => Pseudo.writeBit (v.getLsbD i) s) s

/-- One turn of the loop of `TouchByte(v)` (R129). -/
def Pseudo.touchBit (v : Byte) (x : Byte × State) (i : Nat) : Byte × State :=
  if v.getLsbD i then
    let y := Pseudo.readBit x.2
    (setBit x.1 i y.1, y.2)
  else (x.1, Pseudo.writeBit false x.2)

/-- `TouchByte(v) -> r` (R129). -/
def Pseudo.touchByte (v : Byte) (s : State) : Byte × State :=
  (List.range 8).foldl (Pseudo.touchBit v) (0, s)

/-- `for k: BUF[k] <- TouchByte(BUF[k])`, `count` bytes from `k` on, ascending (R136). -/
def Pseudo.blockTouch : Nat → Nat → State → State
  | 0, _, s => s
  | count + 1, k, s =>
    let x := Pseudo.touchByte ((s.bufByte k).getD 0) s
    Pseudo.blockTouch count (k + 1) (x.2.setBufByte k x.1)

/-- The loop of step 4 (42_search.md R162), `left` positions from `n` on: `ok`, `last_zero` and the state. -/
def Pseudo.searchLoop : Nat → Pos → Pos → State → Bool × Pos × State
  | 0, _, lastZero, s => (true, lastZero, s)
  | left + 1, n, lastZero, s =>
    let x := Pseudo.readBit s
    let y := Pseudo.readBit x.2
    let s := y.2
    if x.1 && y.1 then (false, lastZero, s)
    else
      let dir :=
        if x.1 != y.1 then x.1
        else if n < s.lastDisc then s.rom.getLsbD (n.toNat - 1)
        else if n = s.lastDisc then true
        else false
      let zero := !(x.1 != y.1) && !dir
      let s : State := { s with lastFamDisc := if zero && decide (n < 9) then n else s.lastFamDisc }
      let s := Pseudo.writeBit dir { s with rom := setBit s.rom (n.toNat - 1) dir }
      let s : State :=
        if n.toNat % 8 = 0 then { s with crc := crc8Update s.crc (romByte s.rom (n.toNat / 8 - 1)) } else s
      Pseudo.searchLoop left (n + 1) (if zero then n else lastZero) s

/-- Steps 5 to 7 (R162). -/
def Pseudo.searchEnd (ok : Bool) (lastZero : Pos) (s : State) : Sres × State :=
  if ok = false then (.busError, s.resetSearch)
  else if s.crc ≠ 0 then (.crcError, s.resetSearch)
  else
    let s : State := { s with lastDisc := lastZero, lastDevFlag := decide (lastZero = 0) }
    if romByte s.rom 0 = 0 then (.zeroFamily, s.resetSearch) else (.found, s)

/-- `SearchPass() -> (res, p_seen, p)` (R162), with the state after. -/
def Pseudo.searchPass (s : State) : (Sres × Bool × Bool) × State :=
  if s.lastDevFlag then ((.exhausted, false, false), s)
  else
    let x := Pseudo.resetPresence { s with crc := 0 }
    if x.1 = false then ((.noPresence, true, false), x.2.resetSearch)
    else
      let y := Pseudo.searchLoop 64 1 0 (Pseudo.writeByte 0xF0 x.2)
      let z := Pseudo.searchEnd y.1 y.2.1 y.2.2
      ((z.1, true, true), z.2)

/-- What the completion of a search command writes (R172). -/
def Pseudo.searchComplete (x : (Sres × Bool × Bool) × State) : State :=
  { x.2 with
    sres := x.1.1
    found := decide (x.1.1 = .found)
    presence := if x.1.2.1 then x.1.2.2 else x.2.presence }

/-- The bytes folded in order into an accumulator (43_crc8.md R202). -/
def crcFold (c : Byte) (bs : List Byte) : Byte := bs.foldl crc8Update c

/-- TABLE[0x00] to TABLE[0x3F], as 43_crc8.md R201 lists them. -/
def tableRows0 : List Byte :=
  [0x00, 0x5E, 0xBC, 0xE2, 0x61, 0x3F, 0xDD, 0x83, 0xC2, 0x9C, 0x7E, 0x20, 0xA3, 0xFD, 0x1F, 0x41]
  ++ [0x9D, 0xC3, 0x21, 0x7F, 0xFC, 0xA2, 0x40, 0x1E, 0x5F, 0x01, 0xE3, 0xBD, 0x3E, 0x60, 0x82, 0xDC]
  ++ [0x23, 0x7D, 0x9F, 0xC1, 0x42, 0x1C, 0xFE, 0xA0, 0xE1, 0xBF, 0x5D, 0x03, 0x80, 0xDE, 0x3C, 0x62]
  ++ [0xBE, 0xE0, 0x02, 0x5C, 0xDF, 0x81, 0x63, 0x3D, 0x7C, 0x22, 0xC0, 0x9E, 0x1D, 0x43, 0xA1, 0xFF]

/-- TABLE[0x40] to TABLE[0x7F], as 43_crc8.md R201 lists them. -/
def tableRows4 : List Byte :=
  [0x46, 0x18, 0xFA, 0xA4, 0x27, 0x79, 0x9B, 0xC5, 0x84, 0xDA, 0x38, 0x66, 0xE5, 0xBB, 0x59, 0x07]
  ++ [0xDB, 0x85, 0x67, 0x39, 0xBA, 0xE4, 0x06, 0x58, 0x19, 0x47, 0xA5, 0xFB, 0x78, 0x26, 0xC4, 0x9A]
  ++ [0x65, 0x3B, 0xD9, 0x87, 0x04, 0x5A, 0xB8, 0xE6, 0xA7, 0xF9, 0x1B, 0x45, 0xC6, 0x98, 0x7A, 0x24]
  ++ [0xF8, 0xA6, 0x44, 0x1A, 0x99, 0xC7, 0x25, 0x7B, 0x3A, 0x64, 0x86, 0xD8, 0x5B, 0x05, 0xE7, 0xB9]

/-- TABLE[0x80] to TABLE[0xBF], as 43_crc8.md R201 lists them. -/
def tableRows8 : List Byte :=
  [0x8C, 0xD2, 0x30, 0x6E, 0xED, 0xB3, 0x51, 0x0F, 0x4E, 0x10, 0xF2, 0xAC, 0x2F, 0x71, 0x93, 0xCD]
  ++ [0x11, 0x4F, 0xAD, 0xF3, 0x70, 0x2E, 0xCC, 0x92, 0xD3, 0x8D, 0x6F, 0x31, 0xB2, 0xEC, 0x0E, 0x50]
  ++ [0xAF, 0xF1, 0x13, 0x4D, 0xCE, 0x90, 0x72, 0x2C, 0x6D, 0x33, 0xD1, 0x8F, 0x0C, 0x52, 0xB0, 0xEE]
  ++ [0x32, 0x6C, 0x8E, 0xD0, 0x53, 0x0D, 0xEF, 0xB1, 0xF0, 0xAE, 0x4C, 0x12, 0x91, 0xCF, 0x2D, 0x73]

/-- TABLE[0xC0] to TABLE[0xFF], as 43_crc8.md R201 lists them. -/
def tableRowsC : List Byte :=
  [0xCA, 0x94, 0x76, 0x28, 0xAB, 0xF5, 0x17, 0x49, 0x08, 0x56, 0xB4, 0xEA, 0x69, 0x37, 0xD5, 0x8B]
  ++ [0x57, 0x09, 0xEB, 0xB5, 0x36, 0x68, 0x8A, 0xD4, 0x95, 0xCB, 0x29, 0x77, 0xF4, 0xAA, 0x48, 0x16]
  ++ [0xE9, 0xB7, 0x55, 0x0B, 0x88, 0xD6, 0x34, 0x6A, 0x2B, 0x75, 0x97, 0xC9, 0x4A, 0x14, 0xF6, 0xA8]
  ++ [0x74, 0x2A, 0xC8, 0x96, 0x15, 0x4B, 0xA9, 0xF7, 0xB6, 0xE8, 0x0A, 0x54, 0xD7, 0x89, 0x6B, 0x35]

/-- The 256 entries of TABLE that 43_crc8.md R201 lists, entry 0 first. -/
def tableRows : List Byte := tableRows0 ++ tableRows4 ++ tableRows8 ++ tableRowsC

/-- The eight bytes of a ROM code, the family code first (10_state.md R26). -/
def romBytes (rom : RomCode) : List Byte := (List.range 8).map (romByte rom)

/-! ## What a command writes -/

/-- The sequencer idle again, LINE as it is: BUSY is 0 and nothing of the command is left (10_state.md R30, R33). -/
def State.quiet (s : State) : State :=
  { s with busy := false, progress := none, waitLeft := 0, gap := 0, temps := Temps.fresh }

/-- `t` is `x` with BUSY 0, alike in everything but what the sequencer keeps for itself: its progress, its counters and
its temporaries, for which an idle block's values are the model's choice (log 9, log 10). -/
def State.IdleAs (t x : State) : Prop := t.busy = false ∧ t.quiet = x.quiet

/-- The commands of the transactor (41_transactor.md R130 to R136). -/
def isTransactor : Instr → Bool
  | .owReset => true
  | .owWriteBit _ => true
  | .owReadBit => true
  | .owWriteByte _ => true
  | .owReadByte => true
  | .owTouchByte _ => true
  | .owBlockTouch _ => true
  | .owSearchFirst => false
  | .owSearchNext => false
  | .crc8Update _ => false
  | .delay _ => false

/-- The commands that write DATA (10_state.md R23). -/
def writesData : Instr → Bool
  | .owReset => false
  | .owWriteBit _ => false
  | .owReadBit => true
  | .owWriteByte _ => false
  | .owReadByte => true
  | .owTouchByte _ => true
  | .owBlockTouch _ => false
  | .owSearchFirst => false
  | .owSearchNext => false
  | .crc8Update _ => false
  | .delay _ => false

/-- The number of bytes of BUF a command stores to, from BUF[0] on (41_transactor.md R136). -/
def storedBytes : Instr → Nat
  | .owReset => 0
  | .owWriteBit _ => 0
  | .owReadBit => 0
  | .owWriteByte _ => 0
  | .owReadByte => 0
  | .owTouchByte _ => 0
  | .owBlockTouch len => len.toNat
  | .owSearchFirst => 0
  | .owSearchNext => 0
  | .crc8Update _ => 0
  | .delay _ => 0

/-- The most line events a command performs (60_exceptions.md R235). -/
def eventBound (blockMax : Nat) : Instr → Nat
  | .owReset => 6
  | .owWriteBit _ => 4
  | .owReadBit => 6
  | .owWriteByte _ => 48
  | .owReadByte => 48
  | .owTouchByte _ => 48
  | .owBlockTouch _ => 48 * blockMax
  | .owSearchFirst => 1062
  | .owSearchNext => 1062
  | .crc8Update _ => 0
  | .delay _ => 1

/-! ## Runs and the invariant -/

/-- `k` moves of the sequencer with nothing else between; none if one of them stops. -/
def sequencerMoves : Nat → State → Option State
  | 0, s => some s
  | k + 1, s =>
    match s.sequencerMove with
    | .next t => sequencerMoves k t
    | .fault _ => none
    | .refused _ => none

/-- From LINE as it is, the elements sample and act only while the line is released, and leave it released
(41_transactor.md R122, R123). -/
def lineOk : Bool → List Op → Bool
  | line, [] => !line
  | _, .drive :: rest => lineOk true rest
  | _, .release :: rest => lineOk false rest
  | line, .delay _ :: rest => lineOk line rest
  | line, .delayDir _ _ :: rest => lineOk line rest
  | line, .sample _ :: rest => !line && lineOk line rest
  | line, .act _ :: rest => !line && lineOk line rest

/-- What every step keeps. -/
structure Inv (s : State) : Prop where
  /-- The instance is a legal one (00_scope.md R6). -/
  paramsLegal : s.params.legal = true
  /-- BUF has BLOCK_MAX bytes (10_state.md R27). -/
  bufWf : Memory.wf s = true
  /-- Only a legal word is ever accepted (30_encoding.md R86). -/
  curLegal : s.busy = true → legal s.params.blockMax s.cur = true
  /-- Idle, the sequencer holds nothing (10_state.md R30, R33). -/
  idle : s.busy = false → s.progress = none ∧ s.waitLeft = 0 ∧ s.gap = 0 ∧ s.temps = Temps.fresh
  /-- The line is released when idle and before a command's first event (10_state.md R31). -/
  lineReleased : s.progress = none → s.line = false
  /-- A command in progress samples only a released line and ends with it released (41_transactor.md R122, R123). -/
  lineInCommand : ∀ p, s.progress = some p → lineOk s.line p.ops = true
  /-- A pass meets its exit only while the line is released (42_search.md R165). -/
  lineAtExit : s.temps.stop = true → s.line = false
  /-- FOUND equals `SRES == 1` (10_state.md R22). -/
  foundIsSres : s.found = decide (s.sres = .found)
  /-- No command is in progress while reset is asserted (70_reset_and_hazards.md R250). -/
  resetIdle : s.inReset = true → s.busy = false

end Sys2Proof.Machine
end

