-- ==== Sys2Proof/Certificates/Slice0/Obligations.lean ====
section
/-! DEFINITION. The statements for the provers. OBLIGATIONS.json says of each which rule it states. -/

open Sys2Proof Sys2Proof.Machine

/-! ## Command words (30_encoding.md) -/

/-- Twelve words written out from the encoding tables of R80 to R82 and R84, with BLOCK_MAX 16: nine decode, five of them
with something in an unused field, and three are refused. -/
def Obligations.WordsOfTheTableDecode : Prop :=
  decode 16 0x00000001 = .ok .owReset ∧ decode 16 0x12340102 = .ok (.owWriteBit true)
  ∧ decode 16 0x0000FE02 = .ok (.owWriteBit false) ∧ decode 16 0x0000F004 = .ok (.owWriteByte 0xF0)
  ∧ decode 16 0x0000A506 = .ok (.owTouchByte 0xA5) ∧ decode 16 0x00001007 = .ok (.owBlockTouch 16)
  ∧ decode 16 0x00001107 = .error (.blockTooLong 17) ∧ decode 16 0xABCD0008 = .ok .owSearchFirst
  ∧ decode 16 0xFFFF280A = .ok (.crc8Update 0x28) ∧ decode 16 0x07D0FF0B = .ok (.delay 2000)
  ∧ decode 16 0x00000000 = .error (.noSuchOp 0) ∧ decode 16 0x0000000C = .error (.noSuchOp 0x0C)

/-- Decoding gives back every well-formed command, every operand at every value, on every instance. -/
def Obligations.DecodeOfEncode : Prop :=
  ∀ (blockMax : Nat) (i : Instr), i.wf blockMax = true → decode blockMax (encode i) = .ok i

/-- A word that decodes does so to a well-formed command, and that command's own word is the bits the word uses. -/
def Obligations.EncodeOfDecode : Prop :=
  ∀ (blockMax : Nat) (w : Word) (i : Instr), decode blockMax w = .ok i →
    i.wf blockMax = true ∧ encode i = w &&& usedMask w

/-- R85: every word is a legal command or illegal as R84 says, and R86's `Legal` tells which. -/
def Obligations.EveryWordLegalOrIllegal : Prop :=
  ∀ (blockMax : Nat) (w : Word),
    (legal blockMax w = true → ∃ i, decode blockMax w = .ok i ∧ i.wf blockMax = true)
    ∧ (legal blockMax w = false → ∃ e, decode blockMax w = .error e)
    ∧ (legal blockMax w = false ↔
        opField w = 0x00 ∨ 0x0C ≤ (opField w).toNat
          ∨ (opField w = 0x07 ∧ blockMax < (imm8Field w).toNat))

/-- R83: a word and the same word with its unused fields zero are legal alike, decode alike, and give the same run from
every state but for the word kept in CUR. That CUR keeps the word is the model's choice (log 8), and the run starts as log
14 says. -/
def Obligations.UnusedFieldsIgnored : Prop :=
  ∀ (blockMax : Nat) (w : Word),
    decode blockMax (w &&& usedMask w) = decode blockMax w
    ∧ legal blockMax (w &&& usedMask w) = legal blockMax w
    ∧ ∀ s t : State, step (s.placeCommand w) = .next t →
        step (s.placeCommand (w &&& usedMask w)) = .next { t with cur := w &&& usedMask w }

/-- R87: the assembler's words, the operands it refuses, and that each word it makes is its command's own. -/
def Obligations.AssemblerWords : Prop :=
  ∀ bm : Nat,
    (∀ nm op, assemble bm nm op = none ↔
      match nm with
      | .owDotReset | .owDotRbit | .owDotRbyte | .owDotFirst | .owDotNext => op ≠ none
      | .owDotWbit => ∀ n, op = some n → 1 < n
      | .owDotWbyte | .owDotTouch | .crc8 => ∀ n, op = some n → 255 < n
      | .owDotBlock => ∀ n, op = some n → bm < n
      | .delay => ∀ n, op = some n → 65535 < n)
    ∧ (∀ nm op w, assemble bm nm op = some w → ∃ i, decode bm w = .ok i ∧ encode i = w)
    ∧ assemble bm .owDotReset none = some 0x00000001 ∧ assemble bm .owDotRbit none = some 0x00000003
    ∧ assemble bm .owDotRbyte none = some 0x00000005 ∧ assemble bm .owDotFirst none = some 0x00000008
    ∧ assemble bm .owDotNext none = some 0x00000009
    ∧ (∀ b : Nat, b ≤ 1 → assemble bm .owDotWbit (some b) = some (0x00000002 ||| (BitVec.ofNat 32 b <<< 8)))
    ∧ (∀ v : Nat, v ≤ 255 → assemble bm .owDotWbyte (some v) = some (0x00000004 ||| (BitVec.ofNat 32 v <<< 8))
        ∧ assemble bm .owDotTouch (some v) = some (0x00000006 ||| (BitVec.ofNat 32 v <<< 8))
        ∧ assemble bm .crc8 (some v) = some (0x0000000A ||| (BitVec.ofNat 32 v <<< 8)))
    ∧ (∀ n : Nat, n ≤ bm → n ≤ 255 → assemble bm .owDotBlock (some n) = some (0x00000007 ||| (BitVec.ofNat 32 n <<< 8)))
    ∧ (∀ t : Nat, t ≤ 65535 → assemble bm .delay (some t) = some (0x0000000B ||| (BitVec.ofNat 32 t <<< 16)))

/-! ## Steps and acceptance -/

/-- A step runs the command in CUR: with a command just accepted and no other agent before it, the step is `exec` of
what CUR decodes to, on the state with that turn taken. -/
def Obligations.StepRunsTheAcceptedCommand : Prop :=
  ∀ (s : State) (i : Instr), s.inReset = false → s.busy = true → s.progress = none →
    decode s.params.blockMax s.cur = .ok i →
    (s.inputs = [] → step s = exec i s)
    ∧ ∀ rest, s.inputs = .run :: rest → step s = exec i { s with inputs := rest }

/-- R86: a host write of a word to CMD, at once. While BUSY it sets OVR; an illegal word sets ILL and does nothing
else; a legal one is in CUR with BUSY 1, the sequencer before its first event. -/
def Obligations.CmdWriteIsHandledAtOnce : Prop :=
  ∀ (s : State) (w : Word) (rest : List Input), s.inReset = false →
    s.inputs = .hostWrite (s.params.owBase + 0x00) 4 w :: rest →
    (s.busy = true → step s = .next { s with inputs := rest, ovr := true })
    ∧ (s.busy = false → legal s.params.blockMax w = false → step s = .next { s with inputs := rest, ill := true })
    ∧ (s.busy = false → legal s.params.blockMax w = true →
        ∃ t, step s = .next t ∧ t.busy = true ∧ t.progress = none
          ∧ t.quiet = ({ s with inputs := rest, cur := w } : State).quiet)

/-- R20, R89: whatever a step does, a command starts only by the host's write of a legal word to CMD. -/
def Obligations.OnlyCmdWriteStartsACommand : Prop :=
  ∀ s t : State, step s = .next t → s.busy = false → t.busy = true →
    ∃ w rest, s.inputs = .hostWrite (s.params.owBase + 0x00) 4 w :: rest ∧ legal s.params.blockMax w = true
      ∧ t.cur = w ∧ t.progress = none

/-- R22: PRESENCE, FOUND and SRES hold their previous values in every step that leaves BUSY 1. -/
def Obligations.StatusHeldWhileBusy : Prop :=
  ∀ s t : State, step s = .next t → t.busy = true →
    t.presence = s.presence ∧ t.found = s.found ∧ t.sres = s.sres

/-- R28, R29, R105: no step changes INFO, a timing constant or any other parameter of the instance. -/
def Obligations.ParametersNeverChange : Prop :=
  ∀ s t : State, step s = .next t → t.params = s.params

/-- R223: OVR rises only by a dropped write, and falls only by a 1 written to STATUS bit 8 or by reset. -/
def Obligations.OvrRisesAndFalls : Prop :=
  ∀ s t : State, step s = .next t →
    (s.ovr = false → t.ovr = true → s.busy = true ∧ ∃ addr v rest, s.inputs = .hostWrite addr 4 v :: rest
      ∧ regAt s.params.blockMax (addr - s.params.owBase) ≠ .status
      ∧ regAt s.params.blockMax (addr - s.params.owBase) ≠ .reserved)
    ∧ (s.ovr = true → t.ovr = false →
      (∃ v rest, s.inputs = .hostWrite (s.params.owBase + 0x04) 4 v :: rest ∧ v.getLsbD 8 = true)
      ∨ ∃ rest, s.inputs = .resetAssert :: rest)

/-- R222: ILL rises only by an illegal word written to CMD while idle, which changes nothing else, and falls only by a 1
written to STATUS bit 9 or by reset. -/
def Obligations.IllRisesAndFalls : Prop :=
  ∀ s t : State, step s = .next t →
    (s.ill = false → t.ill = true → s.busy = false ∧ ∃ w rest,
      s.inputs = .hostWrite (s.params.owBase + 0x00) 4 w :: rest ∧ legal s.params.blockMax w = false
      ∧ t = { s with inputs := rest, ill := true })
    ∧ (s.ill = true → t.ill = false →
      (∃ v rest, s.inputs = .hostWrite (s.params.owBase + 0x04) 4 v :: rest ∧ v.getLsbD 9 = true)
      ∨ ∃ rest, s.inputs = .resetAssert :: rest)

/-- R254: every write of a defined offset while BUSY is 1. -/
def Obligations.WriteWhileBusy : Prop :=
  ∀ (s : State) (off : Nat) (v : Word) (rest : List Input), s.inReset = false → s.busy = true →
    off < 256 → off % 4 = 0 → s.inputs = .hostWrite (s.params.owBase + off) 4 v :: rest →
    step s = .next (
      if off = 0x04 then { s with inputs := rest, ovr := s.ovr && !v.getLsbD 8, ill := s.ill && !v.getLsbD 9 }
      else if off ≤ 0x44 ∨ (0x80 ≤ off ∧ (off - 0x80) / 4 < s.params.blockMax / 4) then
        { s with inputs := rest, ovr := true }
      else { s with inputs := rest })

/-- R255, R56: a host read while BUSY is 1. A result register gives a free draw, which no statement can know; every
other offset gives its value; the read changes nothing of OWT. -/
def Obligations.ReadWhileBusy : Prop :=
  ∀ (s : State) (off : Nat) (rest : List Input), s.inReset = false → s.busy = true →
    off < 256 → off % 4 = 0 → s.inputs = .hostRead (s.params.owBase + off) 4 :: rest →
    step s = .next (
      if (0x08 ≤ off ∧ off ≤ 0x18) ∨ (0x80 ≤ off ∧ (off - 0x80) / 4 < s.params.blockMax / 4) then
        { s with inputs := rest, replies := Config.freeWord s.readDraws :: s.replies, readDraws := s.readDraws + 1 }
      else { s with inputs := rest, replies := s.readReg (regAt s.params.blockMax off) :: s.replies })

/-- R56 for an idle block: a read of any offset returns its register and changes nothing of OWT. -/
def Obligations.ReadWhileIdle : Prop :=
  ∀ (s : State) (off : Nat) (rest : List Input), s.inReset = false → s.busy = false →
    off < 256 → off % 4 = 0 → s.inputs = .hostRead (s.params.owBase + off) 4 :: rest →
    step s = .next { s with inputs := rest, replies := s.readReg (regAt s.params.blockMax off) :: s.replies }

/-- R52 for an idle block: a write at any offset is the write of its register; RegisterWindow says what that does. -/
def Obligations.WriteWhileIdle : Prop :=
  ∀ (s : State) (off : Nat) (v : Word) (rest : List Input), s.inReset = false → s.busy = false →
    off < 256 → off % 4 = 0 → s.inputs = .hostWrite (s.params.owBase + off) 4 v :: rest →
    step s = .next (({ s with inputs := rest } : State).hostWriteReg (regAt s.params.blockMax off) v)

/-- R52: what each defined offset reads, and what a write of it does while idle. ReadWhileIdle and WriteWhileIdle say that a
step's access is this one. -/
def Obligations.RegisterWindow : Prop :=
  ∀ (s : State) (v : Word), s.busy = false →
    let rd := fun off => s.readReg (regAt s.params.blockMax off)
    let wr := fun off => s.hostWriteReg (regAt s.params.blockMax off) v
    rd 0x00 = 0 ∧ wr 0x00 = (if legal s.params.blockMax v then s.accept v else { s with ill := true })
    ∧ rd 0x04 = s.statusWord
    ∧ wr 0x04 = { s with ovr := s.ovr && !v.getLsbD 8, ill := s.ill && !v.getLsbD 9 }
    ∧ rd 0x08 = s.data.setWidth 32 ∧ wr 0x08 = s
    ∧ rd 0x0C = s.crc.setWidth 32 ∧ wr 0x0C = { s with crc := v.extractLsb' 0 8 }
    ∧ rd 0x10 = (s.lastFamDisc ++ BitVec.ofBool s.lastDevFlag ++ s.lastDisc).setWidth 32
    ∧ wr 0x10 = { s with
        lastDisc := v.extractLsb' 0 7, lastDevFlag := v.getLsbD 7, lastFamDisc := v.extractLsb' 8 7 }
    ∧ rd 0x14 = s.rom.extractLsb' 0 32 ∧ wr 0x14 = { s with rom := s.rom.extractLsb' 32 32 ++ v }
    ∧ rd 0x18 = s.rom.extractLsb' 32 32 ∧ wr 0x18 = { s with rom := v ++ s.rom.extractLsb' 0 32 }
    ∧ rd 0x1C = (BitVec.ofNat 8 s.params.blockMax).setWidth 32 ∧ wr 0x1C = s
    ∧ rd 0x20 = s.params.profile.tA.setWidth 32 ∧ wr 0x20 = s
    ∧ rd 0x24 = s.params.profile.tB.setWidth 32 ∧ wr 0x24 = s
    ∧ rd 0x28 = s.params.profile.tC.setWidth 32 ∧ wr 0x28 = s
    ∧ rd 0x2C = s.params.profile.tD.setWidth 32 ∧ wr 0x2C = s
    ∧ rd 0x30 = s.params.profile.tE.setWidth 32 ∧ wr 0x30 = s
    ∧ rd 0x34 = s.params.profile.tF.setWidth 32 ∧ wr 0x34 = s
    ∧ rd 0x38 = s.params.profile.tG.setWidth 32 ∧ wr 0x38 = s
    ∧ rd 0x3C = s.params.profile.tH.setWidth 32 ∧ wr 0x3C = s
    ∧ rd 0x40 = s.params.profile.tI.setWidth 32 ∧ wr 0x40 = s
    ∧ rd 0x44 = s.params.profile.tJ.setWidth 32 ∧ wr 0x44 = s
    ∧ (∀ off, off % 4 = 0 → (0x44 < off ∧ off < 0x80) ∨ (0x80 ≤ off ∧ s.params.blockMax ≤ off - 0x80) →
        rd off = 0 ∧ wr off = s)
    ∧ ∀ k, k < s.params.blockMax / 4 →
        (∀ j, j < 4 → (rd (0x80 + 4 * k)).extractLsb' (8 * j) 8 = (s.bufByte (4 * k + j)).getD 0)
        ∧ (∀ j, j < 4 → 4 * k + j < s.buf.length →
            (wr (0x80 + 4 * k)).bufByte (4 * k + j) = some (v.extractLsb' (8 * j) 8))
        ∧ (∀ b, b / 4 ≠ k → (wr (0x80 + 4 * k)).bufByte b = s.bufByte b)
        ∧ wr (0x80 + 4 * k) = { s with buf := (wr (0x80 + 4 * k)).buf }

/-- R54: a reserved offset reads 0 and a write of it does nothing, BUSY or not, past the end of BUF too. -/
def Obligations.ReservedOffsetsAreInert : Prop :=
  ∀ (s : State) (off : Nat) (rest : List Input), s.inReset = false → off < 256 → off % 4 = 0 →
    (0x44 < off ∧ off < 0x80) ∨ (0x80 ≤ off ∧ s.params.blockMax ≤ off - 0x80) →
    (s.inputs = .hostRead (s.params.owBase + off) 4 :: rest →
      step s = .next { s with inputs := rest, replies := 0 :: s.replies })
    ∧ ∀ v, s.inputs = .hostWrite (s.params.owBase + off) 4 v :: rest → step s = .next { s with inputs := rest }

/-- R22, R55: the fields of STATUS, and its reserved bits. -/
def Obligations.StatusWordFields : Prop :=
  ∀ s : State,
    s.statusWord.getLsbD 0 = s.busy ∧ s.statusWord.getLsbD 1 = s.presence ∧ s.statusWord.getLsbD 2 = s.found
    ∧ s.statusWord.getLsbD 3 = false ∧ s.statusWord.extractLsb' 4 3 = s.sres.code ∧ s.statusWord.getLsbD 7 = false
    ∧ s.statusWord.getLsbD 8 = s.ovr ∧ s.statusWord.getLsbD 9 = s.ill ∧ s.statusWord.extractLsb' 10 22 = 0

/-- R58: little-endian packing of BUF and ROM, as written and as read. -/
def Obligations.PackingIsLittleEndian : Prop :=
  ∀ (s : State) (v hi lo : Word) (k : Nat), 4 * k + 3 < s.buf.length →
    s.bufByte (4 * k) = some ((s.bufWord k).extractLsb' 0 8)
    ∧ s.bufByte (4 * k + 3) = some ((s.bufWord k).extractLsb' 24 8)
    ∧ (s.setBufWord k v).bufWord k = v
    ∧ romByte s.rom 0 = (s.readReg .romLo).extractLsb' 0 8 ∧ romByte s.rom 3 = (s.readReg .romLo).extractLsb' 24 8
    ∧ romByte s.rom 4 = (s.readReg .romHi).extractLsb' 0 8 ∧ romByte s.rom 7 = (s.readReg .romHi).extractLsb' 24 8
    ∧ s.rom = s.readReg .romHi ++ s.readReg .romLo
    ∧ ((s.setRomLo lo).setRomHi hi).rom = hi ++ lo ∧ ((s.setRomHi hi).setRomLo lo).rom = hi ++ lo

/-- R53: an access that is not 32 bits wide at a 4-aligned offset has no step. -/
def Obligations.UndefinedAccessIsRefused : Prop :=
  ∀ (s : State) (off bytes : Nat) (v : Word) (rest : List Input), s.inReset = false → off < 256 →
    bytes ≠ 4 ∨ off % 4 ≠ 0 →
    (s.inputs = .hostRead (s.params.owBase + off) bytes :: rest → step s = .refused .undefinedAccess)
    ∧ (s.inputs = .hostWrite (s.params.owBase + off) bytes v :: rest → step s = .refused .undefinedAccess)

/-- R138, R254: no host write reaches a command in progress. Wherever the command has got to, what it ends in is the
same but for the sticky bits the write itself set or cleared. -/
def Obligations.HostWriteCannotDisturbACommand : Prop :=
  ∀ (s : State) (p : Program) (r : Reg) (v : Word), s.busy = true →
    (s.hostWriteReg r v).finish p =
      { s.finish p with ovr := (s.hostWriteReg r v).ovr, ill := (s.hostWriteReg r v).ill }
    ∧ (s.hostWriteReg r v).busy = true

/-! ## Reset -/

/-- R251, at the state of every instance right after reset. BUF is unspecified: only its length is said. The first search
after reset may be either. -/
def Obligations.ValuesAfterReset : Prop :=
  ∀ p : Params,
    let s := State.resetOf p
    s.statusWord = 0 ∧ s.busy = false ∧ s.presence = false ∧ s.found = false ∧ s.sres = .none
    ∧ s.ovr = false ∧ s.ill = false ∧ s.data = 0 ∧ s.crc = 0 ∧ s.lastDisc = 0 ∧ s.lastDevFlag = false
    ∧ s.lastFamDisc = 0 ∧ s.rom = 0 ∧ s.buf.length = p.blockMax ∧ s.params = p ∧ s.line = false
    ∧ s.progress = none ∧ State.reset = State.resetOf State.reset.params
    ∧ exec .owSearchNext s = exec .owSearchFirst s

/-- R250: asserting reset stops a command where it is, with no event and no completion, releases the line and gives
every element its reset value; while it is asserted nothing moves and host accesses are refused; its release changes
nothing else. The values of CUR, the counters and the temporaries, what the model's own fields hold (a wait that was cut
short stands whole in the trace) and the form of the reset input are the model's choices (log 8 to log 11, log 18). -/
def Obligations.BlockReset : Prop :=
  ∀ (s : State) (rest : List Input),
    (s.inputs = .resetAssert :: rest → ∃ buf, buf.length = s.params.blockMax ∧
      step s = .next { State.resetOf s.params with
        buf := buf, inReset := true, inputs := rest, levels := s.levels, trace := s.trace, replies := s.replies,
        sampleDraws := s.sampleDraws, readDraws := s.readDraws, resetDraws := s.resetDraws + 1 })
    ∧ (s.inReset = true → s.inputs = .sequencer :: rest ∨ s.inputs = .run :: rest →
        step s = .next { s with inputs := rest })
    ∧ (s.inReset = true → s.inputs = [] → step s = .next s)
    ∧ (s.inputs = .resetRelease :: rest → step s = .next { s with inputs := rest, inReset := false })
    ∧ (s.inReset = true → ∀ off bytes v, off < 256 →
        (s.inputs = .hostRead (s.params.owBase + off) bytes :: rest → step s = .refused .accessDuringReset)
        ∧ (s.inputs = .hostWrite (s.params.owBase + off) bytes v :: rest → step s = .refused .accessDuringReset))

/-! ## The transactor's commands (41_transactor.md), DELAY and CRC8_UPDATE -/

/-- R130, R124. -/
def Obligations.OwResetResult : Prop :=
  (∀ bm w, opField w = 0x01 → decode bm w = .ok .owReset)
  ∧ ∀ s : State, ∃ t, exec .owReset s = .next t ∧ t.IdleAs { s.dropLevel with
      presence := !s.nextLevel
      line := false
      trace := (resetEvents s.params.profile s.nextLevel).reverse ++ s.trace }

/-- R131, R125. -/
def Obligations.OwWriteBitResult : Prop :=
  (∀ bm w, opField w = 0x02 → decode bm w = .ok (.owWriteBit ((imm8Field w).getLsbD 0)))
  ∧ ∀ (s : State) (bit : Bool), ∃ t, exec (.owWriteBit bit) s = .next t ∧ t.IdleAs { s with
      line := false
      trace := (writeEvents s.params.profile bit).reverse ++ s.trace }

/-- R132, R126. -/
def Obligations.OwReadBitResult : Prop :=
  (∀ bm w, opField w = 0x03 → decode bm w = .ok .owReadBit)
  ∧ ∀ s : State, ∃ t, exec .owReadBit s = .next t ∧ t.IdleAs { s.dropLevel with
      data := if s.nextLevel then 0x01 else 0x00
      line := false
      trace := (readEvents s.params.profile s.nextLevel).reverse ++ s.trace }

/-- R133, R127. -/
def Obligations.OwWriteByteResult : Prop :=
  (∀ bm w, opField w = 0x04 → decode bm w = .ok (.owWriteByte (imm8Field w)))
  ∧ ∀ (s : State) (v : Byte), ∃ t, exec (.owWriteByte v) s = .next t ∧ t.IdleAs { s with
      line := false
      trace := ((wireBits v).flatMap (writeEvents s.params.profile)).reverse ++ s.trace }

/-- R134, R128. -/
def Obligations.OwReadByteResult : Prop :=
  (∀ bm w, opField w = 0x05 → decode bm w = .ok .owReadByte)
  ∧ ∀ s : State, ∃ r : Byte, wireBits r = s.coming 8 ∧
      ∃ t, exec .owReadByte s = .next t ∧ t.IdleAs { s.afterLevels 8 with
        data := r
        line := false
        trace := ((s.coming 8).flatMap (readEvents s.params.profile)).reverse ++ s.trace }

/-- R135, R129: DATA and the events are those of the pseudocode of `TouchByte`; the result is a subset of the byte;
the number of events is the rule's; touching 0xFF is reading a byte. -/
def Obligations.OwTouchByteResult : Prop :=
  (∀ bm w, opField w = 0x06 → decode bm w = .ok (.owTouchByte (imm8Field w)))
  ∧ (∀ s : State, exec (.owTouchByte 0xFF) s = exec .owReadByte s)
  ∧ ∀ (s : State) (v : Byte),
      let x := Pseudo.touchByte v s
      ∃ t, exec (.owTouchByte v) s = .next t ∧ t.IdleAs { x.2 with data := x.1 }
      ∧ x.1 &&& ~~~v = 0x00
      ∧ x.2.line = false
      ∧ x.2.trace.length = 6 * ones v + 4 * (8 - ones v) + s.trace.length

/-- R136. A longer block is illegal: its write sets ILL and starts nothing. -/
def Obligations.OwBlockTouchResult : Prop :=
  (∀ bm w, opField w = 0x07 →
    decode bm w = if (imm8Field w).toNat ≤ bm then .ok (.owBlockTouch (imm8Field w)) else .error (.blockTooLong (imm8Field w)))
  ∧ (∀ (s : State) (len : Byte), Memory.wf s = true → len.toNat ≤ s.params.blockMax →
      ∃ t, exec (.owBlockTouch len) s = .next t ∧ t.IdleAs (Pseudo.blockTouch len.toNat 0 s)
      ∧ t.data = s.data ∧ ∀ k, len.toNat ≤ k → t.bufByte k = s.bufByte k)
  ∧ ∀ (s : State) (w : Word) (rest : List Input), s.inReset = false → s.busy = false →
      opField w = 0x07 → s.params.blockMax < (imm8Field w).toNat →
      s.inputs = .hostWrite (s.params.owBase + 0x00) 4 w :: rest →
      step s = .next { s with inputs := rest, ill := true }

/-- R203, R200. -/
def Obligations.Crc8UpdateResult : Prop :=
  (∀ bm w, opField w = 0x0A → decode bm w = .ok (.crc8Update (imm8Field w)))
  ∧ ∀ (s : State) (b : Byte),
      ∃ t, exec (.crc8Update b) s = .next t ∧ t.IdleAs { s with crc := crc8Table (s.crc ^^^ b) }

/-- R107, R100. -/
def Obligations.DelayResult : Prop :=
  (∀ bm w, opField w = 0x0B → decode bm w = .ok (.delay (imm16Field w)))
  ∧ ∀ (s : State) (ticks : Ticks),
      ∃ t, exec (.delay ticks) s = .next t ∧ t.IdleAs { s with trace := .wait (ticks.toNat / 4) :: s.trace }

/-- R137: the transactor commands read and write no search state. Whatever it holds, the command does the same and
leaves it as it was. -/
def Obligations.TransactorApartFromSearchState : Prop :=
  ∀ (i : Instr) (s t : State), isTransactor i = true → exec i s = .next t →
    (t.lastDisc = s.lastDisc ∧ t.lastDevFlag = s.lastDevFlag ∧ t.lastFamDisc = s.lastFamDisc ∧ t.rom = s.rom
      ∧ t.crc = s.crc ∧ t.found = s.found ∧ t.sres = s.sres)
    ∧ ∀ (a : Pos) (b : Bool) (c : Pos) (rom : RomCode) (crc : Byte) (found : Bool) (sres : Sres),
        exec i { s with
          lastDisc := a, lastDevFlag := b, lastFamDisc := c, rom := rom, crc := crc, found := found, sres := sres } =
        .next { t with
          lastDisc := a, lastDevFlag := b, lastFamDisc := c, rom := rom, crc := crc, found := found, sres := sres }

/-- The frame of every command but the two searches: what stays as it was. That CUR does is the model's choice (log 8). -/
def Obligations.CommandFrame : Prop :=
  ∀ (i : Instr) (s t : State), i.wf s.params.blockMax = true → i ≠ .owSearchFirst → i ≠ .owSearchNext →
    exec i s = .next t →
    t.params = s.params ∧ t.found = s.found ∧ t.sres = s.sres ∧ t.ovr = s.ovr ∧ t.ill = s.ill
    ∧ t.lastDisc = s.lastDisc ∧ t.lastDevFlag = s.lastDevFlag ∧ t.lastFamDisc = s.lastFamDisc ∧ t.rom = s.rom
    ∧ t.cur = s.cur ∧ t.inReset = s.inReset ∧ t.inputs = s.inputs ∧ t.replies = s.replies
    ∧ (i ≠ .owReset → t.presence = s.presence)
    ∧ (writesData i = false → t.data = s.data)
    ∧ ((∀ b, i ≠ .crc8Update b) → t.crc = s.crc)
    ∧ ∀ k, storedBytes i ≤ k → t.bufByte k = s.bufByte k

/-- The frame of the two searches. That CUR stays is the model's choice (log 8). -/
def Obligations.SearchFrame : Prop :=
  ∀ (i : Instr) (s t : State), i = .owSearchFirst ∨ i = .owSearchNext → exec i s = .next t →
    t.params = s.params ∧ t.ovr = s.ovr ∧ t.ill = s.ill ∧ t.data = s.data ∧ t.cur = s.cur
    ∧ t.inReset = s.inReset ∧ t.inputs = s.inputs ∧ t.replies = s.replies ∧ ∀ k, t.bufByte k = s.bufByte k

/-! ## The search (42_search.md) and the CRC8 (43_crc8.md) -/

/-- R174, R162, R172: OW_SEARCH_NEXT is the pass as the spec's pseudocode writes it. -/
def Obligations.SearchNextIsThePass : Prop :=
  (∀ bm w, opField w = 0x09 → decode bm w = .ok .owSearchNext)
  ∧ ∀ s : State, ∃ t, exec .owSearchNext s = .next t ∧ t.IdleAs (Pseudo.searchComplete (Pseudo.searchPass s))

/-- R173, R161: OW_SEARCH_FIRST is the same pass after `ResetSearchState()`. -/
def Obligations.SearchFirstIsThePassFromReset : Prop :=
  (∀ bm w, opField w = 0x08 → decode bm w = .ok .owSearchFirst)
  ∧ ∀ s : State, ∃ t, exec .owSearchFirst s = .next t ∧ t.IdleAs (Pseudo.searchComplete (Pseudo.searchPass
    { s with lastDisc := 0, lastDevFlag := false, lastFamDisc := 0, rom := 0 }))

/-- R163: an exhausted search performs no event and writes only SRES, FOUND and BUSY. -/
def Obligations.ExhaustedSearchChangesNothing : Prop :=
  ∀ s : State, s.lastDevFlag = true →
    ∃ t, exec .owSearchNext s = .next t ∧ t.IdleAs { s with sres := .exhausted, found := false }

/-- R164: no presence ends the pass after the reset, with the search state reset and CRC 0. -/
def Obligations.SearchWithoutPresence : Prop :=
  ∀ s : State, s.lastDevFlag = false → s.nextLevel = true →
    ∃ t, exec .owSearchNext s = .next t ∧ t.IdleAs { s.dropLevel with
      lastDisc := 0, lastDevFlag := false, lastFamDisc := 0, rom := 0, crc := 0
      presence := false, found := false, sres := .noPresence, line := false
      trace := (resetEvents s.params.profile true).reverse ++ s.trace }

/-- R165: two reads of 1 at the first position abort the pass at once, with no write slot. -/
def Obligations.DoubleOneAbortsThePass : Prop :=
  ∀ (s : State) (rest : List Bool), s.lastDevFlag = false → s.levels = false :: true :: true :: rest →
    ∃ t, exec .owSearchNext s = .next t ∧ t.IdleAs { s with
      levels := rest
      lastDisc := 0, lastDevFlag := false, lastFamDisc := 0, rom := 0, crc := 0
      presence := true, found := false, sres := .busError, line := false
      trace := (resetEvents s.params.profile false ++ (wireBits 0xF0).flatMap (writeEvents s.params.profile)
        ++ readEvents s.params.profile true ++ readEvents s.params.profile true).reverse ++ s.trace }

/-- R221: each outcome of a search command, and the state it records; the partial CRC after BUS_ERROR is in
PassEventsAndPartialCrc. -/
def Obligations.SearchOutcomes : Prop :=
  ∀ (i : Instr) (s t : State), i = .owSearchFirst ∨ i = .owSearchNext → exec i s = .next t →
    t.sres ≠ .none ∧ t.found = decide (t.sres = .found)
    ∧ (t.sres = .exhausted ↔ i = .owSearchNext ∧ s.lastDevFlag = true)
    ∧ (t.sres = .noPresence → t.presence = false ∧ t.crc = 0)
    ∧ (t.sres = .crcError → t.crc ≠ 0) ∧ (t.sres = .zeroFamily → t.crc = 0)
    ∧ (t.sres ≠ .found → t.sres ≠ .exhausted →
        t.lastDisc = 0 ∧ t.lastDevFlag = false ∧ t.lastFamDisc = 0 ∧ t.rom = 0)
    ∧ (t.sres = .found → t.crc = 0 ∧ romByte t.rom 0 ≠ 0 ∧ t.lastDisc ≤ 64
        ∧ t.lastDevFlag = decide (t.lastDisc = 0))
    ∧ (t.sres ≠ .exhausted → t.sres ≠ .noPresence → t.presence = true)

/-- R165, R168, R169, R202, R221: a pass that saw a device performs the events of some completed positions `xs`, all 64
unless it aborts; no completed position read two 1s, and reads that differ gave the direction. CRC holds the fold of the
bytes completed, of BUS_ERROR too, and an address found has the directions as its bits. `rom` holds the directions: the
search state a failed pass leaves is reset. -/
def Obligations.PassEventsAndPartialCrc : Prop :=
  ∀ (i : Instr) (s t : State), i = .owSearchFirst ∨ i = .owSearchNext → exec i s = .next t →
    t.sres ≠ .exhausted → t.sres ≠ .noPresence →
    ∃ (xs : List PassPosition) (rom : RomCode),
      t.trace = (passEvents s.params.profile xs (decide (t.sres = .busError))).reverse ++ s.trace
      ∧ (if t.sres = .busError then xs.length < 64 else xs.length = 64)
      ∧ (∀ x ∈ xs, (x.idBit && x.cmpBit) = false ∧ (x.idBit ≠ x.cmpBit → x.dir = x.idBit))
      ∧ xs.map PassPosition.dir = (List.range xs.length).map (fun k => rom.getLsbD k)
      ∧ t.crc = crcFold 0 ((List.range (xs.length / 8)).map (romByte rom))
      ∧ (t.sres = .found → t.rom = rom)

/-- R169, R170, R204: whatever the bus answers, an address a search reports carries the CRC8 of its first seven bytes. -/
def Obligations.FoundAddressHasItsCrc : Prop :=
  ∀ (i : Instr) (s t : State), i = .owSearchFirst ∨ i = .owSearchNext → exec i s = .next t → t.sres = .found →
    romByte t.rom 7 = crcFold 0 ((List.range 7).map (romByte t.rom))

/-- R173: one device alone, with a correct CRC8 byte and a family code that is not 0, is found, and it is the last. -/
def Obligations.LoneDeviceIsFound : Prop :=
  ∀ (s : State) (rom : RomCode) (rest : List Bool),
    crcFold 0 (romBytes rom) = 0 → romByte rom 0 ≠ 0 →
    s.levels = false :: ((List.range 64).flatMap fun k => [rom.getLsbD k, !rom.getLsbD k]) ++ rest →
    ∃ t, exec .owSearchFirst s = .next t ∧ t.sres = .found ∧ t.found = true ∧ t.rom = rom ∧ t.presence = true
      ∧ t.lastDisc = 0 ∧ t.lastDevFlag = true ∧ t.crc = 0 ∧ t.levels = rest
      ∧ t.trace.length = 1062 + s.trace.length

/-- R171: a line stuck low gives ZERO_FAMILY, and everything is reset. -/
def Obligations.StuckLowLineIsZeroFamily : Prop :=
  ∀ (s : State) (rest : List Bool), s.levels = List.replicate 129 false ++ rest →
    ∃ t, exec .owSearchFirst s = .next t ∧ t.sres = .zeroFamily ∧ t.found = false ∧ t.rom = 0 ∧ t.crc = 0
      ∧ t.lastDisc = 0 ∧ t.lastDevFlag = false ∧ t.lastFamDisc = 0

/-- R177: nothing reads LAST_FAM_DISC. A command does the same whatever it holds. -/
def Obligations.LastFamDiscIsNeverRead : Prop :=
  ∀ (i : Instr) (s t : State) (x : Pos), exec i s = .next t →
    ∃ y, exec i { s with lastFamDisc := x } = .next { t with lastFamDisc := y }

/-- R104: no command uses T_G. The read of offset 0x38 returns it, and no other read shows it. -/
def Obligations.ConstantGIsUnused : Prop :=
  (∀ (i : Instr) (s t : State) (x : Ticks), exec i s = .next t →
    exec i { s with params := { s.params with profile := { s.params.profile with tG := x } } } =
      .next { t with params := { t.params with profile := { t.params.profile with tG := x } } })
  ∧ ∀ (s : State) (x : Ticks),
      let u : State := { s with params := { s.params with profile := { s.params.profile with tG := x } } }
      u.readReg (regAt u.params.blockMax 0x38) = x.setWidth 32 ∧ ∀ r : Reg, r ≠ .time .g → u.readReg r = s.readReg r

/-- R176: SRCH, ROM_LO and ROM_HI read from one state and written to another carry the whole search state over. -/
def Obligations.SavedSearchStateIsRestored : Prop :=
  ∀ s u : State,
    ((u.setSrchWord (s.readReg .srch)).setRomLo (s.readReg .romLo)).setRomHi (s.readReg .romHi) =
      { u with
        lastDisc := s.lastDisc, lastDevFlag := s.lastDevFlag, lastFamDisc := s.lastFamDisc, rom := s.rom }

/-- R176: OW_SEARCH_NEXT depends on nothing of OWT but SRCH and ROM: with these alike, the same bus answers and the same
parameters, it performs the same events and ends in the same outcome and search state. -/
def Obligations.SearchDependsOnSearchStateOnly : Prop :=
  ∀ s u t : State, u.params = s.params → u.lastDisc = s.lastDisc → u.lastDevFlag = s.lastDevFlag → u.rom = s.rom →
    u.levels = s.levels → u.sampleDraws = s.sampleDraws → exec .owSearchNext s = .next t →
    ∃ v es, exec .owSearchNext u = .next v ∧ v.sres = t.sres ∧ v.found = t.found ∧ v.rom = t.rom
      ∧ v.lastDisc = t.lastDisc ∧ v.lastDevFlag = t.lastDevFlag ∧ v.levels = t.levels
      ∧ v.sampleDraws = t.sampleDraws ∧ t.trace = es ++ s.trace ∧ v.trace = es ++ u.trace
      ∧ (s.lastDevFlag = false → v.crc = t.crc ∧ v.presence = t.presence)

/-- R201: TABLE's 256 entries are those the rule lists (PRESUMED, the spec's own mark: log 16). -/
def Obligations.Crc8TableEntries : Prop :=
  tableRows.length = 256 ∧ ∀ i : Byte, tableRows[i.toNat]? = some (crc8Table i)

/-- R204: the CRC8 check accepts exactly the codes whose last byte is the CRC8 of the others; eight zero bytes pass. -/
def Obligations.CrcCheckAcceptsExactly : Prop :=
  (∀ (bs : List Byte) (b : Byte), crcFold 0 (bs ++ [b]) = 0 ↔ b = crcFold 0 bs)
  ∧ (∀ x : Byte, crc8Table x = 0 ↔ x = 0)
  ∧ ∀ rom : RomCode, (crcFold 0 (romBytes rom) = 0 ↔
      romByte rom 7 = crcFold 0 ((List.range 7).map (romByte rom)))
    ∧ crcFold 0 (romBytes 0) = 0

/-! ## Time -/

/-- R102: a wait of `us` loads `us * (CLK_HZ / 10^6)` cycles, and each move of the sequencer counts one of them down,
changing nothing else, the line included. -/
def Obligations.WaitCountsItsCycles : Prop :=
  (∀ (s : State) (us : Nat), (s.wait us).waitLeft = us * (s.params.clkHz / 1000000) ∧ (s.wait us).line = s.line)
  ∧ ∀ (s : State) (k : Nat) (p : Program), s.busy = true → s.inReset = false → s.progress = some p →
      k ≤ s.waitLeft → sequencerMoves k s = some { s with waitLeft := s.waitLeft - k }

/-- R261: how long each command lasts on the bus, in any profile. A block longer than BLOCK_MAX never starts. Of a pass that
saw a device, `xs` are the positions it completed, as its events show them. -/
def Obligations.CommandDurations : Prop :=
  ∀ (s t : State) (i : Instr), exec i s = .next t →
    let prof := s.params.profile
    let us := fun x : Ticks => x.toNat / 4
    let slot1 := us prof.tA + us prof.tB
    let slot0 := us prof.tC + us prof.tD
    let read := us prof.tA + us prof.tE + us prof.tF
    match i with
    | .owReset => duration t.trace = us prof.tH + us prof.tI + us prof.tJ + duration s.trace
    | .owWriteBit bit => duration t.trace = (if bit then slot1 else slot0) + duration s.trace
    | .owReadBit => duration t.trace = read + duration s.trace
    | .owWriteByte v => duration t.trace = ones v * slot1 + (8 - ones v) * slot0 + duration s.trace
    | .owReadByte => duration t.trace = 8 * read + duration s.trace
    | .owTouchByte v => duration t.trace = ones v * read + (8 - ones v) * slot0 + duration s.trace
    | .crc8Update _ => duration t.trace = duration s.trace
    | .delay ticks => duration t.trace = us ticks + duration s.trace
    | .owBlockTouch len =>
      duration t.trace =
        (if len.toNat ≤ s.params.blockMax then
          ((s.buf.take len.toNat).map fun v => ones v * read + (8 - ones v) * slot0).sum
        else 0) + duration s.trace
    | .owSearchFirst | .owSearchNext =>
      let reset := us prof.tH + us prof.tI + us prof.tJ
      let command := 4 * slot0 + 4 * slot1
      (t.sres = .exhausted → duration t.trace = duration s.trace)
      ∧ (t.sres = .noPresence → duration t.trace = reset + duration s.trace)
      ∧ (t.sres ≠ .exhausted → t.sres ≠ .noPresence → ∃ xs : List PassPosition,
          t.trace = (passEvents prof xs (decide (t.sres = .busError))).reverse ++ s.trace
          ∧ (if t.sres = .busError then xs.length < 64 else xs.length = 64)
          ∧ duration t.trace = reset + command + (xs.map fun x => 2 * read + if x.dir then slot1 else slot0).sum
            + (if t.sres = .busError then 2 * read else 0) + duration s.trace)

/-- R235, R178, R138: every command completes, whatever the bus answers, in a bounded number of line events, each of
bounded duration. -/
def Obligations.NoCommandHangs : Prop :=
  ∀ (i : Instr) (s : State), ∃ t es, exec i s = .next t ∧ t.busy = false ∧ t.trace = es ++ s.trace
    ∧ es.length ≤ eventBound s.params.blockMax i ∧ ∀ e ∈ es, e.us ≤ 16383

/-- The sequencer's moves, one line event and one clock cycle at a time, end in exactly the state that running the
accepted command whole gives (R30, R60). -/
def Obligations.EventByEventEqualsWhole : Prop :=
  ∀ (s : State) (i : Instr), s.busy = true → s.inReset = false → s.progress = none →
    decode s.params.blockMax s.cur = .ok i →
    ∃ k t, sequencerMoves k s = some t ∧ exec i s = .next t

/-! ## The invariant -/

/-- Every step from a state with the invariant keeps it. -/
def Obligations.StepKeepsInv : Prop :=
  ∀ s t : State, Machine.Inv s → step s = .next t → Machine.Inv t

/-- The invariant holds right after reset of every legal instance. -/
def Obligations.InvAtReset : Prop :=
  Machine.Inv State.reset ∧ ∀ p : Params, p.legal = true → Machine.Inv (State.resetOf p)

/-- R220: from a state with the invariant no step ends in a fault. -/
def Obligations.NoFaultUnderInv : Prop :=
  ∀ s : State, Machine.Inv s → ∀ f : Fault, step s ≠ .fault f
end

