-- ==== Sys2Proof/Laws/State.lean ====
section
/-! SUPPORT. What each named update of the state does to each field, for simp. -/

namespace Sys2Proof.Machine

open Sys2Proof

/-! ## State.perform -/

@[simp] theorem State.perform_params (s : State) (e : LineEvent) : (s.perform e).params = s.params := rfl
@[simp] theorem State.perform_busy (s : State) (e : LineEvent) : (s.perform e).busy = s.busy := rfl
@[simp] theorem State.perform_presence (s : State) (e : LineEvent) : (s.perform e).presence = s.presence := rfl
@[simp] theorem State.perform_found (s : State) (e : LineEvent) : (s.perform e).found = s.found := rfl
@[simp] theorem State.perform_sres (s : State) (e : LineEvent) : (s.perform e).sres = s.sres := rfl
@[simp] theorem State.perform_ovr (s : State) (e : LineEvent) : (s.perform e).ovr = s.ovr := rfl
@[simp] theorem State.perform_ill (s : State) (e : LineEvent) : (s.perform e).ill = s.ill := rfl
@[simp] theorem State.perform_data (s : State) (e : LineEvent) : (s.perform e).data = s.data := rfl
@[simp] theorem State.perform_crc (s : State) (e : LineEvent) : (s.perform e).crc = s.crc := rfl
@[simp] theorem State.perform_lastDisc (s : State) (e : LineEvent) : (s.perform e).lastDisc = s.lastDisc := rfl
@[simp] theorem State.perform_lastDevFlag (s : State) (e : LineEvent) : (s.perform e).lastDevFlag = s.lastDevFlag := rfl
@[simp] theorem State.perform_lastFamDisc (s : State) (e : LineEvent) : (s.perform e).lastFamDisc = s.lastFamDisc := rfl
@[simp] theorem State.perform_rom (s : State) (e : LineEvent) : (s.perform e).rom = s.rom := rfl
@[simp] theorem State.perform_buf (s : State) (e : LineEvent) : (s.perform e).buf = s.buf := rfl
@[simp] theorem State.perform_line (s : State) (e : LineEvent) : (s.perform e).line = s.line := rfl
@[simp] theorem State.perform_cur (s : State) (e : LineEvent) : (s.perform e).cur = s.cur := rfl
@[simp] theorem State.perform_progress (s : State) (e : LineEvent) : (s.perform e).progress = s.progress := rfl
@[simp] theorem State.perform_waitLeft (s : State) (e : LineEvent) : (s.perform e).waitLeft = s.waitLeft := rfl
@[simp] theorem State.perform_gap (s : State) (e : LineEvent) : (s.perform e).gap = s.params.eventLatency := rfl
@[simp] theorem State.perform_temps (s : State) (e : LineEvent) : (s.perform e).temps = s.temps := rfl
@[simp] theorem State.perform_inReset (s : State) (e : LineEvent) : (s.perform e).inReset = s.inReset := rfl
@[simp] theorem State.perform_inputs (s : State) (e : LineEvent) : (s.perform e).inputs = s.inputs := rfl
@[simp] theorem State.perform_levels (s : State) (e : LineEvent) : (s.perform e).levels = s.levels := rfl
@[simp] theorem State.perform_trace (s : State) (e : LineEvent) : (s.perform e).trace = e :: s.trace := rfl
@[simp] theorem State.perform_replies (s : State) (e : LineEvent) : (s.perform e).replies = s.replies := rfl
@[simp] theorem State.perform_sampleDraws (s : State) (e : LineEvent) : (s.perform e).sampleDraws = s.sampleDraws := rfl
@[simp] theorem State.perform_readDraws (s : State) (e : LineEvent) : (s.perform e).readDraws = s.readDraws := rfl
@[simp] theorem State.perform_resetDraws (s : State) (e : LineEvent) : (s.perform e).resetDraws = s.resetDraws := rfl

/-! ## State.drive -/

@[simp] theorem State.drive_params (s : State) : s.drive.params = s.params := rfl
@[simp] theorem State.drive_busy (s : State) : s.drive.busy = s.busy := rfl
@[simp] theorem State.drive_presence (s : State) : s.drive.presence = s.presence := rfl
@[simp] theorem State.drive_found (s : State) : s.drive.found = s.found := rfl
@[simp] theorem State.drive_sres (s : State) : s.drive.sres = s.sres := rfl
@[simp] theorem State.drive_ovr (s : State) : s.drive.ovr = s.ovr := rfl
@[simp] theorem State.drive_ill (s : State) : s.drive.ill = s.ill := rfl
@[simp] theorem State.drive_data (s : State) : s.drive.data = s.data := rfl
@[simp] theorem State.drive_crc (s : State) : s.drive.crc = s.crc := rfl
@[simp] theorem State.drive_lastDisc (s : State) : s.drive.lastDisc = s.lastDisc := rfl
@[simp] theorem State.drive_lastDevFlag (s : State) : s.drive.lastDevFlag = s.lastDevFlag := rfl
@[simp] theorem State.drive_lastFamDisc (s : State) : s.drive.lastFamDisc = s.lastFamDisc := rfl
@[simp] theorem State.drive_rom (s : State) : s.drive.rom = s.rom := rfl
@[simp] theorem State.drive_buf (s : State) : s.drive.buf = s.buf := rfl
@[simp] theorem State.drive_line (s : State) : s.drive.line = true := rfl
@[simp] theorem State.drive_cur (s : State) : s.drive.cur = s.cur := rfl
@[simp] theorem State.drive_progress (s : State) : s.drive.progress = s.progress := rfl
@[simp] theorem State.drive_waitLeft (s : State) : s.drive.waitLeft = s.waitLeft := rfl
@[simp] theorem State.drive_gap (s : State) : s.drive.gap = s.params.eventLatency := rfl
@[simp] theorem State.drive_temps (s : State) : s.drive.temps = s.temps := rfl
@[simp] theorem State.drive_inReset (s : State) : s.drive.inReset = s.inReset := rfl
@[simp] theorem State.drive_inputs (s : State) : s.drive.inputs = s.inputs := rfl
@[simp] theorem State.drive_levels (s : State) : s.drive.levels = s.levels := rfl
@[simp] theorem State.drive_trace (s : State) : s.drive.trace = .drive :: s.trace := rfl
@[simp] theorem State.drive_replies (s : State) : s.drive.replies = s.replies := rfl
@[simp] theorem State.drive_sampleDraws (s : State) : s.drive.sampleDraws = s.sampleDraws := rfl
@[simp] theorem State.drive_readDraws (s : State) : s.drive.readDraws = s.readDraws := rfl
@[simp] theorem State.drive_resetDraws (s : State) : s.drive.resetDraws = s.resetDraws := rfl

/-! ## State.release -/

@[simp] theorem State.release_params (s : State) : s.release.params = s.params := rfl
@[simp] theorem State.release_busy (s : State) : s.release.busy = s.busy := rfl
@[simp] theorem State.release_presence (s : State) : s.release.presence = s.presence := rfl
@[simp] theorem State.release_found (s : State) : s.release.found = s.found := rfl
@[simp] theorem State.release_sres (s : State) : s.release.sres = s.sres := rfl
@[simp] theorem State.release_ovr (s : State) : s.release.ovr = s.ovr := rfl
@[simp] theorem State.release_ill (s : State) : s.release.ill = s.ill := rfl
@[simp] theorem State.release_data (s : State) : s.release.data = s.data := rfl
@[simp] theorem State.release_crc (s : State) : s.release.crc = s.crc := rfl
@[simp] theorem State.release_lastDisc (s : State) : s.release.lastDisc = s.lastDisc := rfl
@[simp] theorem State.release_lastDevFlag (s : State) : s.release.lastDevFlag = s.lastDevFlag := rfl
@[simp] theorem State.release_lastFamDisc (s : State) : s.release.lastFamDisc = s.lastFamDisc := rfl
@[simp] theorem State.release_rom (s : State) : s.release.rom = s.rom := rfl
@[simp] theorem State.release_buf (s : State) : s.release.buf = s.buf := rfl
@[simp] theorem State.release_line (s : State) : s.release.line = false := rfl
@[simp] theorem State.release_cur (s : State) : s.release.cur = s.cur := rfl
@[simp] theorem State.release_progress (s : State) : s.release.progress = s.progress := rfl
@[simp] theorem State.release_waitLeft (s : State) : s.release.waitLeft = s.waitLeft := rfl
@[simp] theorem State.release_gap (s : State) : s.release.gap = s.params.eventLatency := rfl
@[simp] theorem State.release_temps (s : State) : s.release.temps = s.temps := rfl
@[simp] theorem State.release_inReset (s : State) : s.release.inReset = s.inReset := rfl
@[simp] theorem State.release_inputs (s : State) : s.release.inputs = s.inputs := rfl
@[simp] theorem State.release_levels (s : State) : s.release.levels = s.levels := rfl
@[simp] theorem State.release_trace (s : State) : s.release.trace = .release :: s.trace := rfl
@[simp] theorem State.release_replies (s : State) : s.release.replies = s.replies := rfl
@[simp] theorem State.release_sampleDraws (s : State) : s.release.sampleDraws = s.sampleDraws := rfl
@[simp] theorem State.release_readDraws (s : State) : s.release.readDraws = s.readDraws := rfl
@[simp] theorem State.release_resetDraws (s : State) : s.release.resetDraws = s.resetDraws := rfl

/-! ## State.delay -/

@[simp] theorem State.delay_params (s : State) (t : Ticks) : (s.delay t).params = s.params := rfl
@[simp] theorem State.delay_busy (s : State) (t : Ticks) : (s.delay t).busy = s.busy := rfl
@[simp] theorem State.delay_presence (s : State) (t : Ticks) : (s.delay t).presence = s.presence := rfl
@[simp] theorem State.delay_found (s : State) (t : Ticks) : (s.delay t).found = s.found := rfl
@[simp] theorem State.delay_sres (s : State) (t : Ticks) : (s.delay t).sres = s.sres := rfl
@[simp] theorem State.delay_ovr (s : State) (t : Ticks) : (s.delay t).ovr = s.ovr := rfl
@[simp] theorem State.delay_ill (s : State) (t : Ticks) : (s.delay t).ill = s.ill := rfl
@[simp] theorem State.delay_data (s : State) (t : Ticks) : (s.delay t).data = s.data := rfl
@[simp] theorem State.delay_crc (s : State) (t : Ticks) : (s.delay t).crc = s.crc := rfl
@[simp] theorem State.delay_lastDisc (s : State) (t : Ticks) : (s.delay t).lastDisc = s.lastDisc := rfl
@[simp] theorem State.delay_lastDevFlag (s : State) (t : Ticks) : (s.delay t).lastDevFlag = s.lastDevFlag := rfl
@[simp] theorem State.delay_lastFamDisc (s : State) (t : Ticks) : (s.delay t).lastFamDisc = s.lastFamDisc := rfl
@[simp] theorem State.delay_rom (s : State) (t : Ticks) : (s.delay t).rom = s.rom := rfl
@[simp] theorem State.delay_buf (s : State) (t : Ticks) : (s.delay t).buf = s.buf := rfl
@[simp] theorem State.delay_line (s : State) (t : Ticks) : (s.delay t).line = s.line := rfl
@[simp] theorem State.delay_cur (s : State) (t : Ticks) : (s.delay t).cur = s.cur := rfl
@[simp] theorem State.delay_progress (s : State) (t : Ticks) : (s.delay t).progress = s.progress := rfl
@[simp] theorem State.delay_waitLeft (s : State) (t : Ticks) : (s.delay t).waitLeft = t.toNat / 4 * s.params.cyclesPerUs := rfl
@[simp] theorem State.delay_gap (s : State) (t : Ticks) : (s.delay t).gap = s.params.eventLatency := rfl
@[simp] theorem State.delay_temps (s : State) (t : Ticks) : (s.delay t).temps = s.temps := rfl
@[simp] theorem State.delay_inReset (s : State) (t : Ticks) : (s.delay t).inReset = s.inReset := rfl
@[simp] theorem State.delay_inputs (s : State) (t : Ticks) : (s.delay t).inputs = s.inputs := rfl
@[simp] theorem State.delay_levels (s : State) (t : Ticks) : (s.delay t).levels = s.levels := rfl
@[simp] theorem State.delay_trace (s : State) (t : Ticks) : (s.delay t).trace = .wait (t.toNat / 4) :: s.trace := rfl
@[simp] theorem State.delay_replies (s : State) (t : Ticks) : (s.delay t).replies = s.replies := rfl
@[simp] theorem State.delay_sampleDraws (s : State) (t : Ticks) : (s.delay t).sampleDraws = s.sampleDraws := rfl
@[simp] theorem State.delay_readDraws (s : State) (t : Ticks) : (s.delay t).readDraws = s.readDraws := rfl
@[simp] theorem State.delay_resetDraws (s : State) (t : Ticks) : (s.delay t).resetDraws = s.resetDraws := rfl

/-! ## State.resetSearch -/

@[simp] theorem State.resetSearch_params (s : State) : s.resetSearch.params = s.params := rfl
@[simp] theorem State.resetSearch_busy (s : State) : s.resetSearch.busy = s.busy := rfl
@[simp] theorem State.resetSearch_presence (s : State) : s.resetSearch.presence = s.presence := rfl
@[simp] theorem State.resetSearch_found (s : State) : s.resetSearch.found = s.found := rfl
@[simp] theorem State.resetSearch_sres (s : State) : s.resetSearch.sres = s.sres := rfl
@[simp] theorem State.resetSearch_ovr (s : State) : s.resetSearch.ovr = s.ovr := rfl
@[simp] theorem State.resetSearch_ill (s : State) : s.resetSearch.ill = s.ill := rfl
@[simp] theorem State.resetSearch_data (s : State) : s.resetSearch.data = s.data := rfl
@[simp] theorem State.resetSearch_crc (s : State) : s.resetSearch.crc = s.crc := rfl
@[simp] theorem State.resetSearch_lastDisc (s : State) : s.resetSearch.lastDisc = 0 := rfl
@[simp] theorem State.resetSearch_lastDevFlag (s : State) : s.resetSearch.lastDevFlag = false := rfl
@[simp] theorem State.resetSearch_lastFamDisc (s : State) : s.resetSearch.lastFamDisc = 0 := rfl
@[simp] theorem State.resetSearch_rom (s : State) : s.resetSearch.rom = 0 := rfl
@[simp] theorem State.resetSearch_buf (s : State) : s.resetSearch.buf = s.buf := rfl
@[simp] theorem State.resetSearch_line (s : State) : s.resetSearch.line = s.line := rfl
@[simp] theorem State.resetSearch_cur (s : State) : s.resetSearch.cur = s.cur := rfl
@[simp] theorem State.resetSearch_progress (s : State) : s.resetSearch.progress = s.progress := rfl
@[simp] theorem State.resetSearch_waitLeft (s : State) : s.resetSearch.waitLeft = s.waitLeft := rfl
@[simp] theorem State.resetSearch_gap (s : State) : s.resetSearch.gap = s.gap := rfl
@[simp] theorem State.resetSearch_temps (s : State) : s.resetSearch.temps = s.temps := rfl
@[simp] theorem State.resetSearch_inReset (s : State) : s.resetSearch.inReset = s.inReset := rfl
@[simp] theorem State.resetSearch_inputs (s : State) : s.resetSearch.inputs = s.inputs := rfl
@[simp] theorem State.resetSearch_levels (s : State) : s.resetSearch.levels = s.levels := rfl
@[simp] theorem State.resetSearch_trace (s : State) : s.resetSearch.trace = s.trace := rfl
@[simp] theorem State.resetSearch_replies (s : State) : s.resetSearch.replies = s.replies := rfl
@[simp] theorem State.resetSearch_sampleDraws (s : State) : s.resetSearch.sampleDraws = s.sampleDraws := rfl
@[simp] theorem State.resetSearch_readDraws (s : State) : s.resetSearch.readDraws = s.readDraws := rfl
@[simp] theorem State.resetSearch_resetDraws (s : State) : s.resetSearch.resetDraws = s.resetDraws := rfl

/-! ## State.stopWith -/

@[simp] theorem State.stopWith_params (s : State) (r : Sres) : (s.stopWith r).params = s.params := rfl
@[simp] theorem State.stopWith_busy (s : State) (r : Sres) : (s.stopWith r).busy = s.busy := rfl
@[simp] theorem State.stopWith_presence (s : State) (r : Sres) : (s.stopWith r).presence = s.presence := rfl
@[simp] theorem State.stopWith_found (s : State) (r : Sres) : (s.stopWith r).found = s.found := rfl
@[simp] theorem State.stopWith_sres (s : State) (r : Sres) : (s.stopWith r).sres = s.sres := rfl
@[simp] theorem State.stopWith_ovr (s : State) (r : Sres) : (s.stopWith r).ovr = s.ovr := rfl
@[simp] theorem State.stopWith_ill (s : State) (r : Sres) : (s.stopWith r).ill = s.ill := rfl
@[simp] theorem State.stopWith_data (s : State) (r : Sres) : (s.stopWith r).data = s.data := rfl
@[simp] theorem State.stopWith_crc (s : State) (r : Sres) : (s.stopWith r).crc = s.crc := rfl
@[simp] theorem State.stopWith_lastDisc (s : State) (r : Sres) : (s.stopWith r).lastDisc = s.lastDisc := rfl
@[simp] theorem State.stopWith_lastDevFlag (s : State) (r : Sres) : (s.stopWith r).lastDevFlag = s.lastDevFlag := rfl
@[simp] theorem State.stopWith_lastFamDisc (s : State) (r : Sres) : (s.stopWith r).lastFamDisc = s.lastFamDisc := rfl
@[simp] theorem State.stopWith_rom (s : State) (r : Sres) : (s.stopWith r).rom = s.rom := rfl
@[simp] theorem State.stopWith_buf (s : State) (r : Sres) : (s.stopWith r).buf = s.buf := rfl
@[simp] theorem State.stopWith_line (s : State) (r : Sres) : (s.stopWith r).line = s.line := rfl
@[simp] theorem State.stopWith_cur (s : State) (r : Sres) : (s.stopWith r).cur = s.cur := rfl
@[simp] theorem State.stopWith_progress (s : State) (r : Sres) : (s.stopWith r).progress = s.progress := rfl
@[simp] theorem State.stopWith_waitLeft (s : State) (r : Sres) : (s.stopWith r).waitLeft = s.waitLeft := rfl
@[simp] theorem State.stopWith_gap (s : State) (r : Sres) : (s.stopWith r).gap = s.gap := rfl
@[simp] theorem State.stopWith_temps (s : State) (r : Sres) : (s.stopWith r).temps = { s.temps with res := r, stop := true } := rfl
@[simp] theorem State.stopWith_inReset (s : State) (r : Sres) : (s.stopWith r).inReset = s.inReset := rfl
@[simp] theorem State.stopWith_inputs (s : State) (r : Sres) : (s.stopWith r).inputs = s.inputs := rfl
@[simp] theorem State.stopWith_levels (s : State) (r : Sres) : (s.stopWith r).levels = s.levels := rfl
@[simp] theorem State.stopWith_trace (s : State) (r : Sres) : (s.stopWith r).trace = s.trace := rfl
@[simp] theorem State.stopWith_replies (s : State) (r : Sres) : (s.stopWith r).replies = s.replies := rfl
@[simp] theorem State.stopWith_sampleDraws (s : State) (r : Sres) : (s.stopWith r).sampleDraws = s.sampleDraws := rfl
@[simp] theorem State.stopWith_readDraws (s : State) (r : Sres) : (s.stopWith r).readDraws = s.readDraws := rfl
@[simp] theorem State.stopWith_resetDraws (s : State) (r : Sres) : (s.stopWith r).resetDraws = s.resetDraws := rfl

/-! ## State.accept -/

@[simp] theorem State.accept_params (s : State) (w : Word) : (s.accept w).params = s.params := rfl
@[simp] theorem State.accept_busy (s : State) (w : Word) : (s.accept w).busy = true := rfl
@[simp] theorem State.accept_presence (s : State) (w : Word) : (s.accept w).presence = s.presence := rfl
@[simp] theorem State.accept_found (s : State) (w : Word) : (s.accept w).found = s.found := rfl
@[simp] theorem State.accept_sres (s : State) (w : Word) : (s.accept w).sres = s.sres := rfl
@[simp] theorem State.accept_ovr (s : State) (w : Word) : (s.accept w).ovr = s.ovr := rfl
@[simp] theorem State.accept_ill (s : State) (w : Word) : (s.accept w).ill = s.ill := rfl
@[simp] theorem State.accept_data (s : State) (w : Word) : (s.accept w).data = s.data := rfl
@[simp] theorem State.accept_crc (s : State) (w : Word) : (s.accept w).crc = s.crc := rfl
@[simp] theorem State.accept_lastDisc (s : State) (w : Word) : (s.accept w).lastDisc = s.lastDisc := rfl
@[simp] theorem State.accept_lastDevFlag (s : State) (w : Word) : (s.accept w).lastDevFlag = s.lastDevFlag := rfl
@[simp] theorem State.accept_lastFamDisc (s : State) (w : Word) : (s.accept w).lastFamDisc = s.lastFamDisc := rfl
@[simp] theorem State.accept_rom (s : State) (w : Word) : (s.accept w).rom = s.rom := rfl
@[simp] theorem State.accept_buf (s : State) (w : Word) : (s.accept w).buf = s.buf := rfl
@[simp] theorem State.accept_line (s : State) (w : Word) : (s.accept w).line = s.line := rfl
@[simp] theorem State.accept_cur (s : State) (w : Word) : (s.accept w).cur = w := rfl
@[simp] theorem State.accept_progress (s : State) (w : Word) : (s.accept w).progress = none := rfl
@[simp] theorem State.accept_waitLeft (s : State) (w : Word) : (s.accept w).waitLeft = 0 := rfl
@[simp] theorem State.accept_gap (s : State) (w : Word) : (s.accept w).gap = s.params.eventLatency := rfl
@[simp] theorem State.accept_temps (s : State) (w : Word) : (s.accept w).temps = Temps.fresh := rfl
@[simp] theorem State.accept_inReset (s : State) (w : Word) : (s.accept w).inReset = s.inReset := rfl
@[simp] theorem State.accept_inputs (s : State) (w : Word) : (s.accept w).inputs = s.inputs := rfl
@[simp] theorem State.accept_levels (s : State) (w : Word) : (s.accept w).levels = s.levels := rfl
@[simp] theorem State.accept_trace (s : State) (w : Word) : (s.accept w).trace = s.trace := rfl
@[simp] theorem State.accept_replies (s : State) (w : Word) : (s.accept w).replies = s.replies := rfl
@[simp] theorem State.accept_sampleDraws (s : State) (w : Word) : (s.accept w).sampleDraws = s.sampleDraws := rfl
@[simp] theorem State.accept_readDraws (s : State) (w : Word) : (s.accept w).readDraws = s.readDraws := rfl
@[simp] theorem State.accept_resetDraws (s : State) (w : Word) : (s.accept w).resetDraws = s.resetDraws := rfl

/-! ## State.retire -/

@[simp] theorem State.retire_params (s : State) : s.retire.params = s.params := rfl
@[simp] theorem State.retire_busy (s : State) : s.retire.busy = false := rfl
@[simp] theorem State.retire_presence (s : State) : s.retire.presence = s.presence := rfl
@[simp] theorem State.retire_found (s : State) : s.retire.found = s.found := rfl
@[simp] theorem State.retire_sres (s : State) : s.retire.sres = s.sres := rfl
@[simp] theorem State.retire_ovr (s : State) : s.retire.ovr = s.ovr := rfl
@[simp] theorem State.retire_ill (s : State) : s.retire.ill = s.ill := rfl
@[simp] theorem State.retire_data (s : State) : s.retire.data = s.data := rfl
@[simp] theorem State.retire_crc (s : State) : s.retire.crc = s.crc := rfl
@[simp] theorem State.retire_lastDisc (s : State) : s.retire.lastDisc = s.lastDisc := rfl
@[simp] theorem State.retire_lastDevFlag (s : State) : s.retire.lastDevFlag = s.lastDevFlag := rfl
@[simp] theorem State.retire_lastFamDisc (s : State) : s.retire.lastFamDisc = s.lastFamDisc := rfl
@[simp] theorem State.retire_rom (s : State) : s.retire.rom = s.rom := rfl
@[simp] theorem State.retire_buf (s : State) : s.retire.buf = s.buf := rfl
@[simp] theorem State.retire_line (s : State) : s.retire.line = s.line := rfl
@[simp] theorem State.retire_cur (s : State) : s.retire.cur = s.cur := rfl
@[simp] theorem State.retire_progress (s : State) : s.retire.progress = none := rfl
@[simp] theorem State.retire_waitLeft (s : State) : s.retire.waitLeft = 0 := rfl
@[simp] theorem State.retire_gap (s : State) : s.retire.gap = 0 := rfl
@[simp] theorem State.retire_temps (s : State) : s.retire.temps = Temps.fresh := rfl
@[simp] theorem State.retire_inReset (s : State) : s.retire.inReset = s.inReset := rfl
@[simp] theorem State.retire_inputs (s : State) : s.retire.inputs = s.inputs := rfl
@[simp] theorem State.retire_levels (s : State) : s.retire.levels = s.levels := rfl
@[simp] theorem State.retire_trace (s : State) : s.retire.trace = s.trace := rfl
@[simp] theorem State.retire_replies (s : State) : s.retire.replies = s.replies := rfl
@[simp] theorem State.retire_sampleDraws (s : State) : s.retire.sampleDraws = s.sampleDraws := rfl
@[simp] theorem State.retire_readDraws (s : State) : s.retire.readDraws = s.readDraws := rfl
@[simp] theorem State.retire_resetDraws (s : State) : s.retire.resetDraws = s.resetDraws := rfl

/-! ## State.setPresence -/

@[simp] theorem State.setPresence_params (s : State) (p : Bool) : (s.setPresence p).params = s.params := rfl
@[simp] theorem State.setPresence_busy (s : State) (p : Bool) : (s.setPresence p).busy = s.busy := rfl
@[simp] theorem State.setPresence_presence (s : State) (p : Bool) : (s.setPresence p).presence = p := rfl
@[simp] theorem State.setPresence_found (s : State) (p : Bool) : (s.setPresence p).found = s.found := rfl
@[simp] theorem State.setPresence_sres (s : State) (p : Bool) : (s.setPresence p).sres = s.sres := rfl
@[simp] theorem State.setPresence_ovr (s : State) (p : Bool) : (s.setPresence p).ovr = s.ovr := rfl
@[simp] theorem State.setPresence_ill (s : State) (p : Bool) : (s.setPresence p).ill = s.ill := rfl
@[simp] theorem State.setPresence_data (s : State) (p : Bool) : (s.setPresence p).data = s.data := rfl
@[simp] theorem State.setPresence_crc (s : State) (p : Bool) : (s.setPresence p).crc = s.crc := rfl
@[simp] theorem State.setPresence_lastDisc (s : State) (p : Bool) : (s.setPresence p).lastDisc = s.lastDisc := rfl
@[simp] theorem State.setPresence_lastDevFlag (s : State) (p : Bool) : (s.setPresence p).lastDevFlag = s.lastDevFlag := rfl
@[simp] theorem State.setPresence_lastFamDisc (s : State) (p : Bool) : (s.setPresence p).lastFamDisc = s.lastFamDisc := rfl
@[simp] theorem State.setPresence_rom (s : State) (p : Bool) : (s.setPresence p).rom = s.rom := rfl
@[simp] theorem State.setPresence_buf (s : State) (p : Bool) : (s.setPresence p).buf = s.buf := rfl
@[simp] theorem State.setPresence_line (s : State) (p : Bool) : (s.setPresence p).line = s.line := rfl
@[simp] theorem State.setPresence_cur (s : State) (p : Bool) : (s.setPresence p).cur = s.cur := rfl
@[simp] theorem State.setPresence_progress (s : State) (p : Bool) : (s.setPresence p).progress = s.progress := rfl
@[simp] theorem State.setPresence_waitLeft (s : State) (p : Bool) : (s.setPresence p).waitLeft = s.waitLeft := rfl
@[simp] theorem State.setPresence_gap (s : State) (p : Bool) : (s.setPresence p).gap = s.gap := rfl
@[simp] theorem State.setPresence_temps (s : State) (p : Bool) : (s.setPresence p).temps = s.temps := rfl
@[simp] theorem State.setPresence_inReset (s : State) (p : Bool) : (s.setPresence p).inReset = s.inReset := rfl
@[simp] theorem State.setPresence_inputs (s : State) (p : Bool) : (s.setPresence p).inputs = s.inputs := rfl
@[simp] theorem State.setPresence_levels (s : State) (p : Bool) : (s.setPresence p).levels = s.levels := rfl
@[simp] theorem State.setPresence_trace (s : State) (p : Bool) : (s.setPresence p).trace = s.trace := rfl
@[simp] theorem State.setPresence_replies (s : State) (p : Bool) : (s.setPresence p).replies = s.replies := rfl
@[simp] theorem State.setPresence_sampleDraws (s : State) (p : Bool) : (s.setPresence p).sampleDraws = s.sampleDraws := rfl
@[simp] theorem State.setPresence_readDraws (s : State) (p : Bool) : (s.setPresence p).readDraws = s.readDraws := rfl
@[simp] theorem State.setPresence_resetDraws (s : State) (p : Bool) : (s.setPresence p).resetDraws = s.resetDraws := rfl

/-! ## State.setOutcome -/

@[simp] theorem State.setOutcome_params (s : State) (r : Sres) : (s.setOutcome r).params = s.params := rfl
@[simp] theorem State.setOutcome_busy (s : State) (r : Sres) : (s.setOutcome r).busy = s.busy := rfl
@[simp] theorem State.setOutcome_presence (s : State) (r : Sres) : (s.setOutcome r).presence = s.presence := rfl
@[simp] theorem State.setOutcome_found (s : State) (r : Sres) : (s.setOutcome r).found = decide (r = .found) := rfl
@[simp] theorem State.setOutcome_sres (s : State) (r : Sres) : (s.setOutcome r).sres = r := rfl
@[simp] theorem State.setOutcome_ovr (s : State) (r : Sres) : (s.setOutcome r).ovr = s.ovr := rfl
@[simp] theorem State.setOutcome_ill (s : State) (r : Sres) : (s.setOutcome r).ill = s.ill := rfl
@[simp] theorem State.setOutcome_data (s : State) (r : Sres) : (s.setOutcome r).data = s.data := rfl
@[simp] theorem State.setOutcome_crc (s : State) (r : Sres) : (s.setOutcome r).crc = s.crc := rfl
@[simp] theorem State.setOutcome_lastDisc (s : State) (r : Sres) : (s.setOutcome r).lastDisc = s.lastDisc := rfl
@[simp] theorem State.setOutcome_lastDevFlag (s : State) (r : Sres) : (s.setOutcome r).lastDevFlag = s.lastDevFlag := rfl
@[simp] theorem State.setOutcome_lastFamDisc (s : State) (r : Sres) : (s.setOutcome r).lastFamDisc = s.lastFamDisc := rfl
@[simp] theorem State.setOutcome_rom (s : State) (r : Sres) : (s.setOutcome r).rom = s.rom := rfl
@[simp] theorem State.setOutcome_buf (s : State) (r : Sres) : (s.setOutcome r).buf = s.buf := rfl
@[simp] theorem State.setOutcome_line (s : State) (r : Sres) : (s.setOutcome r).line = s.line := rfl
@[simp] theorem State.setOutcome_cur (s : State) (r : Sres) : (s.setOutcome r).cur = s.cur := rfl
@[simp] theorem State.setOutcome_progress (s : State) (r : Sres) : (s.setOutcome r).progress = s.progress := rfl
@[simp] theorem State.setOutcome_waitLeft (s : State) (r : Sres) : (s.setOutcome r).waitLeft = s.waitLeft := rfl
@[simp] theorem State.setOutcome_gap (s : State) (r : Sres) : (s.setOutcome r).gap = s.gap := rfl
@[simp] theorem State.setOutcome_temps (s : State) (r : Sres) : (s.setOutcome r).temps = s.temps := rfl
@[simp] theorem State.setOutcome_inReset (s : State) (r : Sres) : (s.setOutcome r).inReset = s.inReset := rfl
@[simp] theorem State.setOutcome_inputs (s : State) (r : Sres) : (s.setOutcome r).inputs = s.inputs := rfl
@[simp] theorem State.setOutcome_levels (s : State) (r : Sres) : (s.setOutcome r).levels = s.levels := rfl
@[simp] theorem State.setOutcome_trace (s : State) (r : Sres) : (s.setOutcome r).trace = s.trace := rfl
@[simp] theorem State.setOutcome_replies (s : State) (r : Sres) : (s.setOutcome r).replies = s.replies := rfl
@[simp] theorem State.setOutcome_sampleDraws (s : State) (r : Sres) : (s.setOutcome r).sampleDraws = s.sampleDraws := rfl
@[simp] theorem State.setOutcome_readDraws (s : State) (r : Sres) : (s.setOutcome r).readDraws = s.readDraws := rfl
@[simp] theorem State.setOutcome_resetDraws (s : State) (r : Sres) : (s.setOutcome r).resetDraws = s.resetDraws := rfl

/-! ## State.setBufByte -/

@[simp] theorem State.setBufByte_params (s : State) (k : Nat) (v : Byte) : (s.setBufByte k v).params = s.params := rfl
@[simp] theorem State.setBufByte_busy (s : State) (k : Nat) (v : Byte) : (s.setBufByte k v).busy = s.busy := rfl
@[simp] theorem State.setBufByte_presence (s : State) (k : Nat) (v : Byte) : (s.setBufByte k v).presence = s.presence := rfl
@[simp] theorem State.setBufByte_found (s : State) (k : Nat) (v : Byte) : (s.setBufByte k v).found = s.found := rfl
@[simp] theorem State.setBufByte_sres (s : State) (k : Nat) (v : Byte) : (s.setBufByte k v).sres = s.sres := rfl
@[simp] theorem State.setBufByte_ovr (s : State) (k : Nat) (v : Byte) : (s.setBufByte k v).ovr = s.ovr := rfl
@[simp] theorem State.setBufByte_ill (s : State) (k : Nat) (v : Byte) : (s.setBufByte k v).ill = s.ill := rfl
@[simp] theorem State.setBufByte_data (s : State) (k : Nat) (v : Byte) : (s.setBufByte k v).data = s.data := rfl
@[simp] theorem State.setBufByte_crc (s : State) (k : Nat) (v : Byte) : (s.setBufByte k v).crc = s.crc := rfl
@[simp] theorem State.setBufByte_lastDisc (s : State) (k : Nat) (v : Byte) : (s.setBufByte k v).lastDisc = s.lastDisc := rfl
@[simp] theorem State.setBufByte_lastDevFlag (s : State) (k : Nat) (v : Byte) : (s.setBufByte k v).lastDevFlag = s.lastDevFlag := rfl
@[simp] theorem State.setBufByte_lastFamDisc (s : State) (k : Nat) (v : Byte) : (s.setBufByte k v).lastFamDisc = s.lastFamDisc := rfl
@[simp] theorem State.setBufByte_rom (s : State) (k : Nat) (v : Byte) : (s.setBufByte k v).rom = s.rom := rfl
@[simp] theorem State.setBufByte_buf (s : State) (k : Nat) (v : Byte) : (s.setBufByte k v).buf = s.buf.set k v := rfl
@[simp] theorem State.setBufByte_line (s : State) (k : Nat) (v : Byte) : (s.setBufByte k v).line = s.line := rfl
@[simp] theorem State.setBufByte_cur (s : State) (k : Nat) (v : Byte) : (s.setBufByte k v).cur = s.cur := rfl
@[simp] theorem State.setBufByte_progress (s : State) (k : Nat) (v : Byte) : (s.setBufByte k v).progress = s.progress := rfl
@[simp] theorem State.setBufByte_waitLeft (s : State) (k : Nat) (v : Byte) : (s.setBufByte k v).waitLeft = s.waitLeft := rfl
@[simp] theorem State.setBufByte_gap (s : State) (k : Nat) (v : Byte) : (s.setBufByte k v).gap = s.gap := rfl
@[simp] theorem State.setBufByte_temps (s : State) (k : Nat) (v : Byte) : (s.setBufByte k v).temps = s.temps := rfl
@[simp] theorem State.setBufByte_inReset (s : State) (k : Nat) (v : Byte) : (s.setBufByte k v).inReset = s.inReset := rfl
@[simp] theorem State.setBufByte_inputs (s : State) (k : Nat) (v : Byte) : (s.setBufByte k v).inputs = s.inputs := rfl
@[simp] theorem State.setBufByte_levels (s : State) (k : Nat) (v : Byte) : (s.setBufByte k v).levels = s.levels := rfl
@[simp] theorem State.setBufByte_trace (s : State) (k : Nat) (v : Byte) : (s.setBufByte k v).trace = s.trace := rfl
@[simp] theorem State.setBufByte_replies (s : State) (k : Nat) (v : Byte) : (s.setBufByte k v).replies = s.replies := rfl
@[simp] theorem State.setBufByte_sampleDraws (s : State) (k : Nat) (v : Byte) : (s.setBufByte k v).sampleDraws = s.sampleDraws := rfl
@[simp] theorem State.setBufByte_readDraws (s : State) (k : Nat) (v : Byte) : (s.setBufByte k v).readDraws = s.readDraws := rfl
@[simp] theorem State.setBufByte_resetDraws (s : State) (k : Nat) (v : Byte) : (s.setBufByte k v).resetDraws = s.resetDraws := rfl

/-! ## State.dropLevel -/

@[simp] theorem State.dropLevel_params (s : State) : s.dropLevel.params = s.params := by unfold State.dropLevel; split <;> rfl
@[simp] theorem State.dropLevel_busy (s : State) : s.dropLevel.busy = s.busy := by unfold State.dropLevel; split <;> rfl
@[simp] theorem State.dropLevel_presence (s : State) : s.dropLevel.presence = s.presence := by unfold State.dropLevel; split <;> rfl
@[simp] theorem State.dropLevel_found (s : State) : s.dropLevel.found = s.found := by unfold State.dropLevel; split <;> rfl
@[simp] theorem State.dropLevel_sres (s : State) : s.dropLevel.sres = s.sres := by unfold State.dropLevel; split <;> rfl
@[simp] theorem State.dropLevel_ovr (s : State) : s.dropLevel.ovr = s.ovr := by unfold State.dropLevel; split <;> rfl
@[simp] theorem State.dropLevel_ill (s : State) : s.dropLevel.ill = s.ill := by unfold State.dropLevel; split <;> rfl
@[simp] theorem State.dropLevel_data (s : State) : s.dropLevel.data = s.data := by unfold State.dropLevel; split <;> rfl
@[simp] theorem State.dropLevel_crc (s : State) : s.dropLevel.crc = s.crc := by unfold State.dropLevel; split <;> rfl
@[simp] theorem State.dropLevel_lastDisc (s : State) : s.dropLevel.lastDisc = s.lastDisc := by unfold State.dropLevel; split <;> rfl
@[simp] theorem State.dropLevel_lastDevFlag (s : State) : s.dropLevel.lastDevFlag = s.lastDevFlag := by unfold State.dropLevel; split <;> rfl
@[simp] theorem State.dropLevel_lastFamDisc (s : State) : s.dropLevel.lastFamDisc = s.lastFamDisc := by unfold State.dropLevel; split <;> rfl
@[simp] theorem State.dropLevel_rom (s : State) : s.dropLevel.rom = s.rom := by unfold State.dropLevel; split <;> rfl
@[simp] theorem State.dropLevel_buf (s : State) : s.dropLevel.buf = s.buf := by unfold State.dropLevel; split <;> rfl
@[simp] theorem State.dropLevel_line (s : State) : s.dropLevel.line = s.line := by unfold State.dropLevel; split <;> rfl
@[simp] theorem State.dropLevel_cur (s : State) : s.dropLevel.cur = s.cur := by unfold State.dropLevel; split <;> rfl
@[simp] theorem State.dropLevel_progress (s : State) : s.dropLevel.progress = s.progress := by unfold State.dropLevel; split <;> rfl
@[simp] theorem State.dropLevel_waitLeft (s : State) : s.dropLevel.waitLeft = s.waitLeft := by unfold State.dropLevel; split <;> rfl
@[simp] theorem State.dropLevel_gap (s : State) : s.dropLevel.gap = s.gap := by unfold State.dropLevel; split <;> rfl
@[simp] theorem State.dropLevel_temps (s : State) : s.dropLevel.temps = s.temps := by unfold State.dropLevel; split <;> rfl
@[simp] theorem State.dropLevel_inReset (s : State) : s.dropLevel.inReset = s.inReset := by unfold State.dropLevel; split <;> rfl
@[simp] theorem State.dropLevel_inputs (s : State) : s.dropLevel.inputs = s.inputs := by unfold State.dropLevel; split <;> rfl
@[simp] theorem State.dropLevel_trace (s : State) : s.dropLevel.trace = s.trace := by unfold State.dropLevel; split <;> rfl
@[simp] theorem State.dropLevel_replies (s : State) : s.dropLevel.replies = s.replies := by unfold State.dropLevel; split <;> rfl
@[simp] theorem State.dropLevel_readDraws (s : State) : s.dropLevel.readDraws = s.readDraws := by unfold State.dropLevel; split <;> rfl
@[simp] theorem State.dropLevel_resetDraws (s : State) : s.dropLevel.resetDraws = s.resetDraws := by unfold State.dropLevel; split <;> rfl

/-! ## State.answered -/

@[simp] theorem State.answered_params (s : State) : s.answered.params = s.params := by unfold State.answered; split <;> simp
@[simp] theorem State.answered_busy (s : State) : s.answered.busy = s.busy := by unfold State.answered; split <;> simp
@[simp] theorem State.answered_presence (s : State) : s.answered.presence = s.presence := by unfold State.answered; split <;> simp
@[simp] theorem State.answered_found (s : State) : s.answered.found = s.found := by unfold State.answered; split <;> simp
@[simp] theorem State.answered_sres (s : State) : s.answered.sres = s.sres := by unfold State.answered; split <;> simp
@[simp] theorem State.answered_ovr (s : State) : s.answered.ovr = s.ovr := by unfold State.answered; split <;> simp
@[simp] theorem State.answered_ill (s : State) : s.answered.ill = s.ill := by unfold State.answered; split <;> simp
@[simp] theorem State.answered_data (s : State) : s.answered.data = s.data := by unfold State.answered; split <;> simp
@[simp] theorem State.answered_crc (s : State) : s.answered.crc = s.crc := by unfold State.answered; split <;> simp
@[simp] theorem State.answered_lastDisc (s : State) : s.answered.lastDisc = s.lastDisc := by unfold State.answered; split <;> simp
@[simp] theorem State.answered_lastDevFlag (s : State) : s.answered.lastDevFlag = s.lastDevFlag := by unfold State.answered; split <;> simp
@[simp] theorem State.answered_lastFamDisc (s : State) : s.answered.lastFamDisc = s.lastFamDisc := by unfold State.answered; split <;> simp
@[simp] theorem State.answered_rom (s : State) : s.answered.rom = s.rom := by unfold State.answered; split <;> simp
@[simp] theorem State.answered_buf (s : State) : s.answered.buf = s.buf := by unfold State.answered; split <;> simp
@[simp] theorem State.answered_line (s : State) : s.answered.line = s.line := by unfold State.answered; split <;> simp
@[simp] theorem State.answered_cur (s : State) : s.answered.cur = s.cur := by unfold State.answered; split <;> simp
@[simp] theorem State.answered_progress (s : State) : s.answered.progress = s.progress := by unfold State.answered; split <;> simp
@[simp] theorem State.answered_waitLeft (s : State) : s.answered.waitLeft = s.waitLeft := by unfold State.answered; split <;> simp
@[simp] theorem State.answered_gap (s : State) : s.answered.gap = s.gap := by unfold State.answered; split <;> simp
@[simp] theorem State.answered_temps (s : State) : s.answered.temps = s.temps := by unfold State.answered; split <;> simp
@[simp] theorem State.answered_inReset (s : State) : s.answered.inReset = s.inReset := by unfold State.answered; split <;> simp
@[simp] theorem State.answered_inputs (s : State) : s.answered.inputs = s.inputs := by unfold State.answered; split <;> simp
@[simp] theorem State.answered_trace (s : State) : s.answered.trace = s.trace := by unfold State.answered; split <;> simp
@[simp] theorem State.answered_replies (s : State) : s.answered.replies = s.replies := by unfold State.answered; split <;> simp
@[simp] theorem State.answered_readDraws (s : State) : s.answered.readDraws = s.readDraws := by unfold State.answered; split <;> simp
@[simp] theorem State.answered_resetDraws (s : State) : s.answered.resetDraws = s.resetDraws := by unfold State.answered; split <;> simp

/-! ## State.putSample -/

@[simp] theorem State.putSample_params (s : State) (d : Dest) (b : Bool) : (s.putSample d b).params = s.params := by cases d <;> rfl
@[simp] theorem State.putSample_busy (s : State) (d : Dest) (b : Bool) : (s.putSample d b).busy = s.busy := by cases d <;> rfl
@[simp] theorem State.putSample_presence (s : State) (d : Dest) (b : Bool) : (s.putSample d b).presence = s.presence := by cases d <;> rfl
@[simp] theorem State.putSample_found (s : State) (d : Dest) (b : Bool) : (s.putSample d b).found = s.found := by cases d <;> rfl
@[simp] theorem State.putSample_sres (s : State) (d : Dest) (b : Bool) : (s.putSample d b).sres = s.sres := by cases d <;> rfl
@[simp] theorem State.putSample_ovr (s : State) (d : Dest) (b : Bool) : (s.putSample d b).ovr = s.ovr := by cases d <;> rfl
@[simp] theorem State.putSample_ill (s : State) (d : Dest) (b : Bool) : (s.putSample d b).ill = s.ill := by cases d <;> rfl
@[simp] theorem State.putSample_data (s : State) (d : Dest) (b : Bool) : (s.putSample d b).data = s.data := by cases d <;> rfl
@[simp] theorem State.putSample_crc (s : State) (d : Dest) (b : Bool) : (s.putSample d b).crc = s.crc := by cases d <;> rfl
@[simp] theorem State.putSample_lastDisc (s : State) (d : Dest) (b : Bool) : (s.putSample d b).lastDisc = s.lastDisc := by cases d <;> rfl
@[simp] theorem State.putSample_lastDevFlag (s : State) (d : Dest) (b : Bool) : (s.putSample d b).lastDevFlag = s.lastDevFlag := by cases d <;> rfl
@[simp] theorem State.putSample_lastFamDisc (s : State) (d : Dest) (b : Bool) : (s.putSample d b).lastFamDisc = s.lastFamDisc := by cases d <;> rfl
@[simp] theorem State.putSample_rom (s : State) (d : Dest) (b : Bool) : (s.putSample d b).rom = s.rom := by cases d <;> rfl
@[simp] theorem State.putSample_buf (s : State) (d : Dest) (b : Bool) : (s.putSample d b).buf = s.buf := by cases d <;> rfl
@[simp] theorem State.putSample_line (s : State) (d : Dest) (b : Bool) : (s.putSample d b).line = s.line := by cases d <;> rfl
@[simp] theorem State.putSample_cur (s : State) (d : Dest) (b : Bool) : (s.putSample d b).cur = s.cur := by cases d <;> rfl
@[simp] theorem State.putSample_progress (s : State) (d : Dest) (b : Bool) : (s.putSample d b).progress = s.progress := by cases d <;> rfl
@[simp] theorem State.putSample_waitLeft (s : State) (d : Dest) (b : Bool) : (s.putSample d b).waitLeft = s.waitLeft := by cases d <;> rfl
@[simp] theorem State.putSample_gap (s : State) (d : Dest) (b : Bool) : (s.putSample d b).gap = s.gap := by cases d <;> rfl
@[simp] theorem State.putSample_inReset (s : State) (d : Dest) (b : Bool) : (s.putSample d b).inReset = s.inReset := by cases d <;> rfl
@[simp] theorem State.putSample_inputs (s : State) (d : Dest) (b : Bool) : (s.putSample d b).inputs = s.inputs := by cases d <;> rfl
@[simp] theorem State.putSample_levels (s : State) (d : Dest) (b : Bool) : (s.putSample d b).levels = s.levels := by cases d <;> rfl
@[simp] theorem State.putSample_trace (s : State) (d : Dest) (b : Bool) : (s.putSample d b).trace = s.trace := by cases d <;> rfl
@[simp] theorem State.putSample_replies (s : State) (d : Dest) (b : Bool) : (s.putSample d b).replies = s.replies := by cases d <;> rfl
@[simp] theorem State.putSample_sampleDraws (s : State) (d : Dest) (b : Bool) : (s.putSample d b).sampleDraws = s.sampleDraws := by cases d <;> rfl
@[simp] theorem State.putSample_readDraws (s : State) (d : Dest) (b : Bool) : (s.putSample d b).readDraws = s.readDraws := by cases d <;> rfl
@[simp] theorem State.putSample_resetDraws (s : State) (d : Dest) (b : Bool) : (s.putSample d b).resetDraws = s.resetDraws := by cases d <;> rfl

/-! ## State.sample -/

@[simp] theorem State.sample_params (s : State) (d : Dest) : (s.sample d).params = s.params := by simp [State.sample]
@[simp] theorem State.sample_busy (s : State) (d : Dest) : (s.sample d).busy = s.busy := by simp [State.sample]
@[simp] theorem State.sample_presence (s : State) (d : Dest) : (s.sample d).presence = s.presence := by simp [State.sample]
@[simp] theorem State.sample_found (s : State) (d : Dest) : (s.sample d).found = s.found := by simp [State.sample]
@[simp] theorem State.sample_sres (s : State) (d : Dest) : (s.sample d).sres = s.sres := by simp [State.sample]
@[simp] theorem State.sample_ovr (s : State) (d : Dest) : (s.sample d).ovr = s.ovr := by simp [State.sample]
@[simp] theorem State.sample_ill (s : State) (d : Dest) : (s.sample d).ill = s.ill := by simp [State.sample]
@[simp] theorem State.sample_data (s : State) (d : Dest) : (s.sample d).data = s.data := by simp [State.sample]
@[simp] theorem State.sample_crc (s : State) (d : Dest) : (s.sample d).crc = s.crc := by simp [State.sample]
@[simp] theorem State.sample_lastDisc (s : State) (d : Dest) : (s.sample d).lastDisc = s.lastDisc := by simp [State.sample]
@[simp] theorem State.sample_lastDevFlag (s : State) (d : Dest) : (s.sample d).lastDevFlag = s.lastDevFlag := by simp [State.sample]
@[simp] theorem State.sample_lastFamDisc (s : State) (d : Dest) : (s.sample d).lastFamDisc = s.lastFamDisc := by simp [State.sample]
@[simp] theorem State.sample_rom (s : State) (d : Dest) : (s.sample d).rom = s.rom := by simp [State.sample]
@[simp] theorem State.sample_buf (s : State) (d : Dest) : (s.sample d).buf = s.buf := by simp [State.sample]
@[simp] theorem State.sample_line (s : State) (d : Dest) : (s.sample d).line = s.line := by simp [State.sample]
@[simp] theorem State.sample_cur (s : State) (d : Dest) : (s.sample d).cur = s.cur := by simp [State.sample]
@[simp] theorem State.sample_progress (s : State) (d : Dest) : (s.sample d).progress = s.progress := by simp [State.sample]
@[simp] theorem State.sample_waitLeft (s : State) (d : Dest) : (s.sample d).waitLeft = s.waitLeft := by simp [State.sample]
@[simp] theorem State.sample_gap (s : State) (d : Dest) : (s.sample d).gap = s.params.eventLatency := by simp [State.sample]
@[simp] theorem State.sample_inReset (s : State) (d : Dest) : (s.sample d).inReset = s.inReset := by simp [State.sample]
@[simp] theorem State.sample_inputs (s : State) (d : Dest) : (s.sample d).inputs = s.inputs := by simp [State.sample]
@[simp] theorem State.sample_levels (s : State) (d : Dest) : (s.sample d).levels = s.answered.levels := by simp [State.sample]
@[simp] theorem State.sample_trace (s : State) (d : Dest) : (s.sample d).trace = .sample s.level :: s.trace := by simp [State.sample]
@[simp] theorem State.sample_replies (s : State) (d : Dest) : (s.sample d).replies = s.replies := by simp [State.sample]
@[simp] theorem State.sample_sampleDraws (s : State) (d : Dest) : (s.sample d).sampleDraws = s.answered.sampleDraws := by simp [State.sample]
@[simp] theorem State.sample_readDraws (s : State) (d : Dest) : (s.sample d).readDraws = s.readDraws := by simp [State.sample]
@[simp] theorem State.sample_resetDraws (s : State) (d : Dest) : (s.sample d).resetDraws = s.resetDraws := by simp [State.sample]

end Sys2Proof.Machine
end

