-- ==== Sys2Proof/Laws/Sequencer.lean ====
section
/-! SUPPORT. What one element of a command, and a whole command, can and cannot change. -/

namespace Sys2Proof.Machine

open Sys2Proof

/-! ## What no element of a command touches -/

/-- The fields that only the host, acceptance, completion or a block reset writes are alike in two states. -/
structure SameOutside (s t : State) : Prop where
  params : t.params = s.params
  busy : t.busy = s.busy
  presence : t.presence = s.presence
  found : t.found = s.found
  sres : t.sres = s.sres
  ovr : t.ovr = s.ovr
  ill : t.ill = s.ill
  data : t.data = s.data
  cur : t.cur = s.cur
  progress : t.progress = s.progress
  inReset : t.inReset = s.inReset
  inputs : t.inputs = s.inputs
  replies : t.replies = s.replies
  readDraws : t.readDraws = s.readDraws
  resetDraws : t.resetDraws = s.resetDraws
  bufLength : t.buf.length = s.buf.length

theorem SameOutside.rfl (s : State) : SameOutside s s := by constructor <;> first | exact Eq.refl _

theorem SameOutside.trans {s t u : State} (h : SameOutside s t) (k : SameOutside t u) : SameOutside s u where
  params := k.params.trans h.params
  busy := k.busy.trans h.busy
  presence := k.presence.trans h.presence
  found := k.found.trans h.found
  sres := k.sres.trans h.sres
  ovr := k.ovr.trans h.ovr
  ill := k.ill.trans h.ill
  data := k.data.trans h.data
  cur := k.cur.trans h.cur
  progress := k.progress.trans h.progress
  inReset := k.inReset.trans h.inReset
  inputs := k.inputs.trans h.inputs
  replies := k.replies.trans h.replies
  readDraws := k.readDraws.trans h.readDraws
  resetDraws := k.resetDraws.trans h.resetDraws
  bufLength := k.bufLength.trans h.bufLength

theorem passBegin_same (s : State) : SameOutside s s.passBegin := by
  unfold State.passBegin
  split <;> constructor <;> simp

theorem presenceCheck_same (s : State) : SameOutside s s.presenceCheck := by
  simp only [State.presenceCheck]
  split <;> constructor <;> simp

theorem passEnd_same (s : State) : SameOutside s s.passEnd := by
  simp only [State.passEnd]
  split
  · constructor <;> simp
  split
  · constructor <;> simp
  split <;> constructor <;> simp

theorem take_same (s : State) (d : Bool) : SameOutside s (s.take d) := by constructor <;> rfl

theorem recordZero_same (s : State) : SameOutside s s.recordZero := by constructor <;> rfl

theorem direction_same (s : State) : SameOutside s s.direction := by
  unfold State.direction
  split
  · have h : SameOutside s { s with temps := { s.temps with ok := false } } := by constructor <;> rfl
    exact h.trans (passEnd_same _)
  split
  · exact take_same s _
  split
  · exact take_same s _
  · exact (recordZero_same s).trans (take_same _ _)

/-- One element of a command leaves them alone. -/
theorem doOp_same (s : State) (op : Op) : SameOutside s (s.doOp op) := by
  cases op with
  | drive => constructor <;> rfl
  | release => constructor <;> rfl
  | delay t => constructor <;> rfl
  | delayDir a b => constructor <;> rfl
  | sample d => constructor <;> simp [State.doOp]
  | act a =>
    cases a with
    | clearByte => constructor <;> rfl
    | storeByte k => constructor <;> simp [State.doOp, State.doAct]
    | resetSearch => constructor <;> rfl
    | passBegin => exact passBegin_same s
    | presenceCheck => exact presenceCheck_same s
    | loopBegin => constructor <;> rfl
    | direction => exact direction_same s
    | advance => constructor <;> rfl
    | passEnd => exact passEnd_same s

/-- A list of elements leaves them alone. -/
theorem runOps_same (ops : List Op) (s : State) : SameOutside s (runOps ops s) := by
  induction ops generalizing s with
  | nil => exact SameOutside.rfl s
  | cons op rest ih =>
    unfold runOps
    split
    · exact SameOutside.rfl s
    · exact (doOp_same s op).trans (ih _)

/-! ## Running lists of elements -/

/-- Once the pass has met its exit, nothing more is done. -/
theorem runOps_of_stop (ops : List Op) (s : State) (h : s.temps.stop = true) : runOps ops s = s := by
  cases ops <;> simp [runOps, h]

theorem runOps_cons (op : Op) (rest : List Op) (s : State) (h : s.temps.stop = false) :
    runOps (op :: rest) s = runOps rest (s.doOp op) := by
  simp [runOps, h]

/-- Running one list and then another is running the two as one. -/
theorem runOps_append (a b : List Op) (s : State) : runOps (a ++ b) s = runOps b (runOps a s) := by
  induction a generalizing s with
  | nil => rfl
  | cons op rest ih =>
    by_cases h : s.temps.stop = true
    · simp [runOps_of_stop, h]
    · simp only [List.cons_append, runOps_cons _ _ _ (by simpa using h), ih]

/-- A change of the state that every element of a list commutes with, the run of the list commutes with. -/
theorem runOps_commute (f : State → State) (ops : List Op) (hstop : ∀ s, (f s).temps.stop = s.temps.stop)
    (hop : ∀ op ∈ ops, ∀ s, (f s).doOp op = f (s.doOp op)) (s : State) :
    runOps ops (f s) = f (runOps ops s) := by
  induction ops generalizing s with
  | nil => rfl
  | cons op rest ih =>
    simp only [runOps, hstop]
    split
    · rfl
    · rw [hop op (by simp), ih fun o ho => hop o (by simp [ho])]

/-- What a command ends in does not depend on the wait and gap counters. -/
theorem doOp_counters (s : State) (op : Op) (w g : Nat) :
    ∃ w' g', ({ s with waitLeft := w, gap := g } : State).doOp op = { s.doOp op with waitLeft := w', gap := g' } := by
  cases op with
  | drive => exact ⟨w, s.params.eventLatency, rfl⟩
  | release => exact ⟨w, s.params.eventLatency, rfl⟩
  | delay t => exact ⟨_, _, rfl⟩
  | delayDir a b => exact ⟨_, _, rfl⟩
  | sample d =>
    refine ⟨w, s.params.eventLatency, ?_⟩
    cases d <;>
      · simp only [State.doOp, State.sample, State.answered, State.level, State.nextLevel, State.dropLevel]
        by_cases hl : s.line = true
        · simp [hl, State.putSample, State.perform]
        · cases hv : s.levels <;> simp [hl, State.putSample, State.perform]
  | act a =>
    refine ⟨w, g, ?_⟩
    cases a <;> try rfl
    · simp only [State.doOp, State.doAct, State.passBegin]
      split <;> rfl
    · simp only [State.doOp, State.doAct, State.presenceCheck]
      split <;> rfl
    · have hb : ({ s with waitLeft := w, gap := g } : State).branch = s.branch := rfl
      simp only [State.doOp, State.doAct, State.direction, hb]
      split
      · simp only [State.passEnd]
        rfl
      split
      · rfl
      split <;> rfl
    · simp only [State.doOp, State.doAct, State.passEnd]
      split
      · rfl
      split
      · rfl
      split <;> rfl

theorem runOps_counters (ops : List Op) (s : State) (w g : Nat) :
    ∃ w' g', runOps ops { s with waitLeft := w, gap := g } = { runOps ops s with waitLeft := w', gap := g' } := by
  induction ops generalizing s w g with
  | nil => exact ⟨w, g, rfl⟩
  | cons op rest ih =>
    by_cases h : s.temps.stop = true
    · exact ⟨w, g, by simp [runOps, h]⟩
    · obtain ⟨w', g', hd⟩ := doOp_counters s op w g
      obtain ⟨w'', g'', hr⟩ := ih (s.doOp op) w' g'
      exact ⟨w'', g'', by simp only [runOps, h]; simpa [hd] using hr⟩

/-- A completion leaves the counters at 0 and does not read them. -/
theorem complete_counters (s : State) (c : Completion) (w g : Nat) :
    ({ s with waitLeft := w, gap := g } : State).complete c = s.complete c := by
  cases c <;> try rfl
  simp only [State.complete, State.writeSearchResult]
  split <;> rfl

theorem finish_counters (s : State) (p : Program) (w g : Nat) :
    ({ s with waitLeft := w, gap := g } : State).finish p = s.finish p := by
  obtain ⟨w', g', h⟩ := runOps_counters p.ops s w g
  simp only [State.finish, h, complete_counters]

/-- After a completion the sequencer is idle. -/
theorem complete_idle (s : State) (c : Completion) :
    (s.complete c).busy = false ∧ (s.complete c).progress = none ∧ (s.complete c).waitLeft = 0
      ∧ (s.complete c).gap = 0 ∧ (s.complete c).temps = Temps.fresh := by
  cases c <;> simp [State.complete]

end Sys2Proof.Machine
end

