-- ==== Sys2Proof/Laws/Command.lean ====
section
/-! SUPPORT. What a command's meaning answers, and what a completion, a run and a move leave alone. -/

namespace Sys2Proof.Machine

open Sys2Proof

/-- A command's meaning always answers a next state: its program's end, or for a block touch longer than BUF the
refusal to start. -/
theorem exec_answers (i : Instr) (s : State) :
    exec i s = .next (({ s with temps := Temps.fresh } : State).finish (programOf i s))
    ∨ ∃ len, i = .owBlockTouch len ∧ s.params.blockMax < len.toNat ∧ exec i s = .next s.setIll.retire := by
  cases i with
  | owBlockTouch len =>
    by_cases hl : len.toNat ≤ s.params.blockMax
    · exact .inl (by simp only [exec, execOwBlockTouch, if_pos hl]; rfl)
    · exact .inr ⟨len, rfl, by omega, by simp only [exec, execOwBlockTouch, if_neg hl]⟩
  | _ => exact .inl rfl

/-- A well-formed command's meaning is its program's end. -/
theorem exec_wf {i : Instr} {s : State} (h : i.wf s.params.blockMax = true) :
    exec i s = .next (({ s with temps := Temps.fresh } : State).finish (programOf i s)) := by
  rcases exec_answers i s with he | ⟨len, rfl, hl, -⟩
  · exact he
  · simp only [Instr.wf, decide_eq_true_eq] at h
    omega

/-- What no completion touches. -/
structure SameThroughCompletion (s t : State) : Prop where
  params : t.params = s.params
  ovr : t.ovr = s.ovr
  ill : t.ill = s.ill
  lastDisc : t.lastDisc = s.lastDisc
  lastDevFlag : t.lastDevFlag = s.lastDevFlag
  lastFamDisc : t.lastFamDisc = s.lastFamDisc
  rom : t.rom = s.rom
  buf : t.buf = s.buf
  line : t.line = s.line
  cur : t.cur = s.cur
  inReset : t.inReset = s.inReset
  inputs : t.inputs = s.inputs
  levels : t.levels = s.levels
  trace : t.trace = s.trace
  replies : t.replies = s.replies
  sampleDraws : t.sampleDraws = s.sampleDraws
  readDraws : t.readDraws = s.readDraws
  resetDraws : t.resetDraws = s.resetDraws

theorem complete_same (s : State) (c : Completion) : SameThroughCompletion s (s.complete c) := by
  cases c <;> try (constructor <;> rfl)
  simp only [State.complete, State.writeSearchResult]
  split <;> constructor <;> rfl

/-- What a command run whole leaves alone, whichever it is. -/
theorem finish_frame (s : State) (p : Program) :
    (s.finish p).params = s.params ∧ (s.finish p).ovr = s.ovr ∧ (s.finish p).ill = s.ill
      ∧ (s.finish p).cur = s.cur ∧ (s.finish p).busy = false ∧ (s.finish p).inReset = s.inReset
      ∧ (s.finish p).inputs = s.inputs ∧ (s.finish p).replies = s.replies
      ∧ (s.finish p).buf.length = s.buf.length := by
  have a := runOps_same p.ops s
  have b := complete_same (runOps p.ops s) p.result
  refine ⟨b.params.trans a.params, b.ovr.trans a.ovr, b.ill.trans a.ill, b.cur.trans a.cur,
    (complete_idle _ _).1, b.inReset.trans a.inReset, b.inputs.trans a.inputs, b.replies.trans a.replies, ?_⟩
  simp only [State.finish, b.buf, a.bufLength]

/-- A move completes the command, or leaves what the host sees of STATUS, and BUSY, alone. -/
theorem advanceProgram_cases (s : State) (p : Program) :
    s.advanceProgram p = s.complete p.result
    ∨ (s.advanceProgram p).busy = s.busy ∧ (s.advanceProgram p).presence = s.presence
      ∧ (s.advanceProgram p).found = s.found ∧ (s.advanceProgram p).sres = s.sres
      ∧ (s.advanceProgram p).params = s.params ∧ (s.advanceProgram p).ovr = s.ovr
      ∧ (s.advanceProgram p).ill = s.ill ∧ (s.advanceProgram p).cur = s.cur
      ∧ (s.advanceProgram p).inReset = s.inReset ∧ (s.advanceProgram p).buf.length = s.buf.length := by
  unfold State.advanceProgram
  split
  · right; simp
  split
  · right; simp
  split
  · exact .inl rfl
  split
  · exact .inl rfl
  · rename_i op rest _
    have h := doOp_same s op
    exact .inr ⟨h.busy, h.presence, h.found, h.sres, h.params, h.ovr, h.ill, h.cur, h.inReset, h.bufLength⟩

end Sys2Proof.Machine
end

