-- ==== Sys2Proof/Laws/Decode.lean ====
section
/-! SUPPORT. The fields of a word put together from its fields, and the bits of a masked word. -/

namespace Sys2Proof

@[simp] theorem opField_wordOfFields (op imm8 : Byte) (imm16 : Ticks) :
    opField (wordOfFields op imm8 imm16) = op := by
  unfold opField wordOfFields
  ext k hk
  have h16 : k < 16 := by omega
  simp [hk, h16]
  omega

@[simp] theorem imm8Field_wordOfFields (op imm8 : Byte) (imm16 : Ticks) :
    imm8Field (wordOfFields op imm8 imm16) = imm8 := by
  unfold imm8Field wordOfFields
  ext k hk
  have h16 : 8 + k < 16 := by omega
  have h32 : 8 + k < 32 := by omega
  simp [h16, h32, BitVec.getLsbD_eq_getElem hk]

@[simp] theorem imm16Field_wordOfFields (op imm8 : Byte) (imm16 : Ticks) :
    imm16Field (wordOfFields op imm8 imm16) = imm16 := by
  unfold imm16Field wordOfFields
  ext k hk
  have h32 : 16 + k < 32 := by omega
  have hop : op.getLsbD (16 + k) = false := BitVec.getLsbD_of_ge _ _ (by omega)
  have himm : imm8.getLsbD (16 + k - 8) = false := BitVec.getLsbD_of_ge _ _ (by omega)
  simp [h32, hop, himm, BitVec.getLsbD_eq_getElem hk]

/-- Two words with the same fields are the same word. -/
theorem word_ext {w v : Word} (hop : opField w = opField v) (h8 : imm8Field w = imm8Field v)
    (h16 : imm16Field w = imm16Field v) : w = v := by
  ext k hk
  have b (f : Nat) (n : Nat) (x y : BitVec n) (h : x = y) : x.getLsbD f = y.getLsbD f := by rw [h]
  by_cases h1 : k < 8
  · have := b k 8 _ _ hop
    simpa [opField, h1, hk, ← BitVec.getLsbD_eq_getElem] using this
  by_cases h2 : k < 16
  · have := b (k - 8) 8 _ _ h8
    have e : 8 + (k - 8) = k := by omega
    have l : k - 8 < 8 := by omega
    simpa [imm8Field, e, l, hk, ← BitVec.getLsbD_eq_getElem] using this
  · have := b (k - 16) 16 _ _ h16
    have e : 16 + (k - 16) = k := by omega
    have l : k - 16 < 16 := by omega
    simpa [imm16Field, e, l, hk, ← BitVec.getLsbD_eq_getElem] using this

/-- A word is its fields put together. -/
theorem wordOfFields_fields (w : Word) : wordOfFields (opField w) (imm8Field w) (imm16Field w) = w :=
  word_ext (by simp) (by simp) (by simp)

@[simp] theorem opField_and (w m : Word) : opField (w &&& m) = opField w &&& opField m := by
  ext k hk
  simp [opField]

@[simp] theorem imm8Field_and (w m : Word) : imm8Field (w &&& m) = imm8Field w &&& imm8Field m := by
  ext k hk
  simp [imm8Field]

@[simp] theorem imm16Field_and (w m : Word) : imm16Field (w &&& m) = imm16Field w &&& imm16Field m := by
  ext k hk
  simp [imm16Field]

end Sys2Proof
end

