-- ==== Sys2Proof/Laws/HostPort.lean ====
section
/-! SUPPORT. When a host access has an offset, and what host accesses can change. -/

namespace Sys2Proof.Machine

open Sys2Proof

/-- An aligned 32-bit access in the window, with reset released, has its offset. -/
theorem offsetOf_window (s : State) (off : Nat) (hr : s.inReset = false) (hlt : off < 256) (h4 : off % 4 = 0) :
    s.offsetOf (s.params.owBase + off) 4 = .ok off := by
  simp [State.offsetOf, hr, hlt, h4]

/-- Only such an access has one. -/
theorem offsetOf_inv {s : State} {addr bytes off : Nat} (h : s.offsetOf addr bytes = .ok off) :
    s.inReset = false ∧ bytes = 4 ∧ addr = s.params.owBase + off ∧ off < 256 ∧ off % 4 = 0 := by
  unfold State.offsetOf at h
  split at h
  · cases h
  split at h
  · cases h
  split at h
  · cases h
  rename_i hin hr hw
  cases h
  simp only [not_or, not_lt, not_le, Decidable.not_not, ne_eq, Bool.not_eq_true] at hin hr hw
  exact ⟨hr, hw.1, by omega, by omega, hw.2⟩

/-- A host read changes the replies and the draw counter, nothing else. -/
theorem hostReadReg_changes (s : State) (r : Reg) :
    ∃ v d, s.hostReadReg r = { s with replies := v :: s.replies, readDraws := d } := by
  unfold State.hostReadReg
  split
  · exact ⟨_, _, rfl⟩
  · exact ⟨_, s.readDraws, rfl⟩

/-- A host write while BUSY changes OVR and ILL, nothing else. -/
theorem hostWriteReg_busy (s : State) (r : Reg) (v : Word) (h : s.busy = true) :
    s.hostWriteReg r v = { s with ovr := (s.hostWriteReg r v).ovr, ill := (s.hostWriteReg r v).ill } := by
  unfold State.hostWriteReg
  rw [if_pos h]
  cases r <;> rfl

/-- A host write while idle starts a command or leaves the sequencer alone. -/
theorem hostWriteReg_idle (s : State) (r : Reg) (v : Word) (h : s.busy = false) :
    (r = .cmd ∧ legal s.params.blockMax v = true ∧ s.hostWriteReg r v = s.accept v)
    ∨ ((s.hostWriteReg r v).params = s.params ∧ (s.hostWriteReg r v).busy = false
      ∧ (s.hostWriteReg r v).presence = s.presence ∧ (s.hostWriteReg r v).found = s.found
      ∧ (s.hostWriteReg r v).sres = s.sres ∧ (s.hostWriteReg r v).cur = s.cur
      ∧ (s.hostWriteReg r v).progress = s.progress ∧ (s.hostWriteReg r v).waitLeft = s.waitLeft
      ∧ (s.hostWriteReg r v).gap = s.gap ∧ (s.hostWriteReg r v).temps = s.temps
      ∧ (s.hostWriteReg r v).line = s.line ∧ (s.hostWriteReg r v).inReset = s.inReset
      ∧ (s.hostWriteReg r v).buf.length = s.buf.length) := by
  cases r with
  | cmd =>
    cases hl : legal s.params.blockMax v with
    | true => exact .inl ⟨rfl, rfl, by simp [State.hostWriteReg, h, State.writeRegIdle, State.submit, hl]⟩
    | false => right; simp [State.hostWriteReg, h, State.writeRegIdle, State.submit, hl, State.setIll]
  | status => right; simp [State.hostWriteReg, h, State.writeRegIdle, State.clearSticky]
  | data => right; simp [State.hostWriteReg, h, State.writeRegIdle]
  | crc => right; simp [State.hostWriteReg, h, State.writeRegIdle]
  | srch => right; simp [State.hostWriteReg, h, State.writeRegIdle, State.setSrchWord]
  | romLo => right; simp [State.hostWriteReg, h, State.writeRegIdle, State.setRomLo]
  | romHi => right; simp [State.hostWriteReg, h, State.writeRegIdle, State.setRomHi]
  | info => right; simp [State.hostWriteReg, h, State.writeRegIdle]
  | time k => right; simp [State.hostWriteReg, h, State.writeRegIdle]
  | buf k => right; simp [State.hostWriteReg, h, State.writeRegIdle, State.setBufWord]
  | reserved => right; simp [State.hostWriteReg, h, State.writeRegIdle]

/-- STATUS stands at offset 0x04 alone. -/
theorem regAt_status {blockMax off : Nat} (h : regAt blockMax off = .status) : off = 0x04 := by
  unfold regAt at h
  split at h <;> first | rfl | cases h | (split at h <;> cases h)

/-- CMD stands at offset 0x00 alone. -/
theorem regAt_cmd {blockMax off : Nat} (h : regAt blockMax off = .cmd) : off = 0x00 := by
  unfold regAt at h
  split at h <;> first | rfl | cases h | (split at h <;> cases h)

/-- The registers at the offsets from 0x80 on. -/
theorem regAt_high {blockMax off : Nat} (h80 : 0x80 ≤ off) (h4 : off % 4 = 0) :
    regAt blockMax off = if (off - 0x80) / 4 < blockMax / 4 then .buf ((off - 0x80) / 4) else .reserved := by
  unfold regAt
  split <;> first | omega | simp [h80, h4]

/-- The aligned offsets between the timing constants and BUF are reserved. -/
theorem regAt_middle {blockMax off : Nat} (hlo : 0x44 < off) (hhi : off < 0x80) : regAt blockMax off = .reserved := by
  unfold regAt
  split <;> first | omega | simp [show ¬ 0x80 ≤ off by omega]

end Sys2Proof.Machine
end

