-- ==== Sys2Proof/Laws/Step.lean ====
section
/-! SUPPORT. What a step can do, said once: every next state comes by one of these turns. -/

namespace Sys2Proof.Machine

open Sys2Proof

/-- The turns that lead from `s` to `t`. -/
inductive StepCase (s t : State) : Prop where
  | hostRead (off : Nat) (rest : List Input) (inputs : s.inputs = .hostRead (s.params.owBase + off) 4 :: rest)
      (released : s.inReset = false) (inWindow : off < 256) (aligned : off % 4 = 0)
      (result : t = ({ s with inputs := rest } : State).hostReadReg (regAt s.params.blockMax off))
  | hostWrite (off : Nat) (v : Word) (rest : List Input)
      (inputs : s.inputs = .hostWrite (s.params.owBase + off) 4 v :: rest)
      (released : s.inReset = false) (inWindow : off < 256) (aligned : off % 4 = 0)
      (result : t = ({ s with inputs := rest } : State).hostWriteReg (regAt s.params.blockMax off) v)
  | resetAssert (rest : List Input) (inputs : s.inputs = .resetAssert :: rest)
      (result : t = ({ s with inputs := rest } : State).blockReset)
  | resetRelease (rest : List Input) (inputs : s.inputs = .resetRelease :: rest)
      (result : t = { s with inputs := rest, inReset := false })
  | nothing (rest : List Input) (inputs : s.inputs = rest ∨ s.inputs = .run :: rest ∨ s.inputs = .sequencer :: rest)
      (still : (s.inReset || !s.busy) = true) (result : t = { s with inputs := rest })
  | takeUp (rest : List Input) (i : Instr) (inputs : s.inputs = .sequencer :: rest) (released : s.inReset = false)
      (busy : s.busy = true) (fresh : s.progress = none) (command : decode s.params.blockMax s.cur = .ok i)
      (result : t = { s with
        inputs := rest, progress := some (programOf i { s with inputs := rest }), temps := Temps.fresh })
  | move (rest : List Input) (p : Program) (inputs : s.inputs = .sequencer :: rest) (released : s.inReset = false)
      (busy : s.busy = true) (begun : s.progress = some p)
      (result : t = ({ s with inputs := rest } : State).advanceProgram p)
  | whole (rest : List Input) (i : Instr) (inputs : s.inputs = rest ∨ s.inputs = .run :: rest)
      (released : s.inReset = false) (busy : s.busy = true) (fresh : s.progress = none)
      (command : decode s.params.blockMax s.cur = .ok i) (result : exec i { s with inputs := rest } = .next t)
  | remainder (rest : List Input) (p : Program) (inputs : s.inputs = rest ∨ s.inputs = .run :: rest)
      (released : s.inReset = false) (busy : s.busy = true) (begun : s.progress = some p)
      (result : t = ({ s with inputs := rest } : State).finish p)

theorem runToCompletion_cases {s t : State} {rest : List Input} (hi : s.inputs = rest ∨ s.inputs = .run :: rest)
    (h : ({ s with inputs := rest } : State).runToCompletion = .next t) : StepCase s t := by
  unfold State.runToCompletion at h
  split at h
  · rename_i hc
    cases h
    exact .nothing rest (hi.imp id .inl) hc rfl
  rename_i hc
  simp only [Bool.or_eq_true, Bool.not_eq_true', not_or, Bool.not_eq_true, Bool.not_eq_false] at hc
  split at h
  · rename_i p hp
    cases h
    exact .remainder rest p hi hc.1 hc.2 hp rfl
  · rename_i hp
    split at h
    · rename_i i hd
      exact .whole rest i hi hc.1 hc.2 hp hd h
    · cases h

/-- Every step that answers a next state is one of the turns. -/
theorem step_cases {s t : State} (h : step s = .next t) : StepCase s t := by
  unfold step State.takeTurn at h
  split at h
  · rename_i hi
    exact runToCompletion_cases (rest := []) (.inl hi) (by rw [← hi]; exact h)
  · rename_i addr bytes rest hi
    unfold State.hostRead at h
    split at h
    · rename_i off ho
      obtain ⟨hr, rfl, ha, hlt, h4⟩ := offsetOf_inv ho
      cases h
      exact .hostRead off rest (by rw [hi, ha]) hr hlt h4 rfl
    · cases h
  · rename_i addr bytes v rest hi
    unfold State.hostWrite at h
    split at h
    · rename_i off ho
      obtain ⟨hr, rfl, ha, hlt, h4⟩ := offsetOf_inv ho
      cases h
      exact .hostWrite off v rest (by rw [hi, ha]) hr hlt h4 rfl
    · cases h
  · rename_i rest hi
    cases h
    exact .resetAssert rest hi rfl
  · rename_i rest hi
    cases h
    exact .resetRelease rest hi rfl
  · rename_i rest hi
    unfold State.sequencerMove at h
    split at h
    · rename_i hc
      cases h
      exact .nothing rest (.inr (.inr hi)) hc rfl
    rename_i hc
    simp only [Bool.or_eq_true, Bool.not_eq_true', not_or, Bool.not_eq_true, Bool.not_eq_false] at hc
    split at h
    · rename_i p hp
      cases h
      exact .move rest p hi hc.1 hc.2 hp rfl
    · rename_i hp
      split at h
      · rename_i i hd
        cases h
        exact .takeUp rest i hi hc.1 hc.2 hp hd rfl
      · cases h
  · rename_i rest hi
    exact runToCompletion_cases (.inr hi) h

end Sys2Proof.Machine
end

