-- ==== Sys2Proof/Laws/Memory.lean ====
section
/-! SUPPORT. BUF, the machine's one memory: what a read gives after a write, and that its form is kept by everything. -/

namespace Sys2Proof.Machine

open Sys2Proof

/-- Reading a byte of BUF that has just been written. -/
theorem bufByte_setBufByte_same (s : State) (k : Nat) (v : Byte) (h : k < s.buf.length) :
    (s.setBufByte k v).bufByte k = some v := by
  simp [State.bufByte, State.setBufByte, h]

/-- A write of one byte of BUF leaves every other. -/
theorem bufByte_setBufByte_other (s : State) (k j : Nat) (v : Byte) (h : j ≠ k) :
    (s.setBufByte k v).bufByte j = s.bufByte j := by
  simp only [State.bufByte, State.setBufByte]
  exact List.getElem?_set_ne (Ne.symm h)

/-- A byte past the end of BUF is not there, and a write of it changes nothing. -/
theorem setBufByte_past (s : State) (k : Nat) (v : Byte) (h : s.buf.length ≤ k) :
    s.bufByte k = none ∧ s.setBufByte k v = s := by
  constructor
  · simp [State.bufByte, h]
  · simp [State.setBufByte, List.set_eq_of_length_le h]

/-- A host write of a word of BUF leaves every byte outside it. -/
theorem bufByte_setBufWord_other (s : State) (k j : Nat) (v : Word) (h : j / 4 ≠ k) :
    (s.setBufWord k v).bufByte j = s.bufByte j := by
  simp only [State.setBufWord]
  rw [bufByte_setBufByte_other _ _ _ _ (by omega), bufByte_setBufByte_other _ _ _ _ (by omega),
    bufByte_setBufByte_other _ _ _ _ (by omega), bufByte_setBufByte_other _ _ _ _ (by omega)]

/-! ## The form is kept -/

/-- The form depends on the length of BUF and the parameters. -/
theorem wf_of_same {s t : State} (hb : t.buf.length = s.buf.length) (hp : t.params = s.params)
    (h : Memory.wf s = true) : Memory.wf t = true := by
  simpa [Memory.wf, hb, hp] using h

theorem wf_setBufByte {s : State} (k : Nat) (v : Byte) (h : Memory.wf s = true) : Memory.wf (s.setBufByte k v) = true :=
  wf_of_same (s := s) (by simp [State.setBufByte]) rfl h

theorem wf_setBufWord {s : State} (k : Nat) (v : Word) (h : Memory.wf s = true) : Memory.wf (s.setBufWord k v) = true :=
  wf_setBufByte _ _ (wf_setBufByte _ _ (wf_setBufByte _ _ (wf_setBufByte _ _ h)))

theorem wf_resetOf (p : Params) : Memory.wf (State.resetOf p) = true := by
  simp [Memory.wf, State.resetOf, State.drawnBuf]

theorem wf_blockReset (s : State) : Memory.wf s.blockReset = true := by
  simp [Memory.wf, State.blockReset, State.resetOf, State.drawnBuf]

theorem wf_runOps {s : State} (ops : List Op) (h : Memory.wf s = true) : Memory.wf (runOps ops s) = true :=
  wf_of_same (runOps_same ops s).bufLength (runOps_same ops s).params h

theorem wf_complete {s : State} (c : Completion) (h : Memory.wf s = true) : Memory.wf (s.complete c) = true :=
  wf_of_same (by rw [(complete_same s c).buf]) (complete_same s c).params h

theorem wf_finish {s : State} (p : Program) (h : Memory.wf s = true) : Memory.wf (s.finish p) = true :=
  wf_complete _ (wf_runOps _ h)

theorem wf_exec {i : Instr} {s t : State} (he : exec i s = .next t) (h : Memory.wf s = true) : Memory.wf t = true := by
  rcases exec_answers i s with ha | ⟨len, -, -, ha⟩ <;> rw [ha] at he <;> cases he
  · exact wf_finish _ h
  · exact h

theorem wf_hostWriteReg {s : State} (r : Reg) (v : Word) (h : Memory.wf s = true) :
    Memory.wf (s.hostWriteReg r v) = true := by
  cases hb : s.busy
  · rcases hostWriteReg_idle s r v hb with ⟨-, -, he⟩ | hs
    · rw [he]; exact h
    · exact wf_of_same hs.2.2.2.2.2.2.2.2.2.2.2.2 hs.1 h
  · rw [hostWriteReg_busy s r v hb]; exact h

theorem wf_advanceProgram {s : State} (p : Program) (h : Memory.wf s = true) :
    Memory.wf (s.advanceProgram p) = true := by
  rcases advanceProgram_cases s p with he | hs
  · rw [he]; exact wf_complete _ h
  · exact wf_of_same hs.2.2.2.2.2.2.2.2.2 hs.2.2.2.2.1 h

/-- Every step keeps the form of BUF. -/
theorem wf_step {s t : State} (hs : step s = .next t) (h : Memory.wf s = true) : Memory.wf t = true := by
  cases step_cases hs with
  | hostRead off rest _ _ _ _ res =>
    obtain ⟨v, d, he⟩ := hostReadReg_changes { s with inputs := rest } (regAt s.params.blockMax off)
    rw [res, he]; exact h
  | hostWrite off v rest _ _ _ _ res => rw [res]; exact wf_hostWriteReg _ _ (by exact h)
  | resetAssert rest _ res => rw [res]; exact wf_blockReset _
  | resetRelease rest _ res => rw [res]; exact h
  | nothing rest _ _ res => rw [res]; exact h
  | takeUp rest i _ _ _ _ _ res => rw [res]; exact h
  | move rest p _ _ _ _ res => rw [res]; exact wf_advanceProgram _ (by exact h)
  | whole rest i _ _ _ _ _ res => exact wf_exec res (by exact h)
  | remainder rest p _ _ _ _ res => rw [res]; exact wf_finish _ (by exact h)

/-- BUF has its form at reset. -/
theorem wf_reset : Memory.wf State.reset = true := wf_resetOf _

end Sys2Proof.Machine
end

