-- ==== Sys2Proof/Laws/PerInstr.lean ====
section
/-! SUPPORT. The family OpField: what is said of every command as syntax, a lemma for each. -/

namespace Sys2Proof.Laws.OpField

open Sys2Proof

/-- The OP of a command (30_encoding.md R82). -/
def opOf : Instr → Byte
  | .owReset => 0x01
  | .owWriteBit _ => 0x02
  | .owReadBit => 0x03
  | .owWriteByte _ => 0x04
  | .owReadByte => 0x05
  | .owTouchByte _ => 0x06
  | .owBlockTouch _ => 0x07
  | .owSearchFirst => 0x08
  | .owSearchNext => 0x09
  | .crc8Update _ => 0x0A
  | .delay _ => 0x0B

/-- A command's word has its OP, and only the bits the command uses (R82, R83). -/
def Statement (i : Instr) : Prop := opField (encode i) = opOf i ∧ encode i &&& usedMask (encode i) = encode i

theorem owReset : Statement .owReset := by unfold Statement; decide

theorem owWriteBit (bit : Bool) : Statement (.owWriteBit bit) := by unfold Statement; revert bit; decide

theorem owReadBit : Statement .owReadBit := by unfold Statement; decide

theorem owWriteByte (byte : Byte) : Statement (.owWriteByte byte) := by unfold Statement; revert byte; decide +kernel

theorem owReadByte : Statement .owReadByte := by unfold Statement; decide

theorem owTouchByte (byte : Byte) : Statement (.owTouchByte byte) := by unfold Statement; revert byte; decide +kernel

theorem owBlockTouch (len : Byte) : Statement (.owBlockTouch len) := by unfold Statement; revert len; decide +kernel

theorem owSearchFirst : Statement .owSearchFirst := by unfold Statement; decide

theorem owSearchNext : Statement .owSearchNext := by unfold Statement; decide

theorem crc8Update (byte : Byte) : Statement (.crc8Update byte) := by unfold Statement; revert byte; decide +kernel

theorem delay (ticks : Ticks) : Statement (.delay ticks) := by
  have hop : opField (wordOfFields 0x0B 0 ticks) = 0x0B := by simp
  refine ⟨hop, ?_⟩
  have hmask : usedMask (wordOfFields 0x0B 0 ticks) = 0xFFFF00FF#32 := by
    unfold usedMask
    rw [hop]
    rfl
  show wordOfFields 0x0B 0 ticks &&& usedMask (wordOfFields 0x0B 0 ticks) = wordOfFields 0x0B 0 ticks
  rw [hmask]
  have h1 : opField 0xFFFF00FF#32 = 0xFF#8 := by decide
  have h2 : imm8Field 0xFFFF00FF#32 = 0#8 := by decide
  have h3 : imm16Field 0xFFFF00FF#32 = BitVec.allOnes 16 := by decide
  apply word_ext
  · simp [h1]
  · simp [h2]
  · rw [imm16Field_and, h3, BitVec.and_allOnes]

end Sys2Proof.Laws.OpField
end

