-- ==== Sys2Proof/Laws/Slots.lean ====
section
/-! SUPPORT. What each slot does, said once: the slot's elements run as the spec's subroutine, and the subroutine's effect. -/

namespace Sys2Proof.Machine

open Sys2Proof

/-! ## Samples -/

/-- A sample of a released line takes the environment's next level. -/
theorem level_released (s : State) (h : s.line = false) : s.level = s.nextLevel := by
  simp [State.level, State.nextLevel, h]

theorem answered_released (s : State) (h : s.line = false) : s.answered = s.dropLevel := by
  simp [State.answered, State.dropLevel, h]

/-- The environment's answers depend on nothing but its own two fields. -/
theorem nextLevel_congr {s t : State} (hl : t.levels = s.levels) (hd : t.sampleDraws = s.sampleDraws) :
    t.nextLevel = s.nextLevel := by
  simp [State.nextLevel, hl, hd]

/-- Taking an answer touches only the environment's two fields. -/
theorem dropLevel_changes (s : State) :
    s.dropLevel = { s with levels := s.dropLevel.levels, sampleDraws := s.dropLevel.sampleDraws } := by
  unfold State.dropLevel
  split <;> rfl

theorem dropLevel_levels (s : State) : s.dropLevel.levels = s.levels.tail := by
  unfold State.dropLevel
  split <;> simp [*]

theorem dropLevel_sampleDraws (s : State) :
    s.dropLevel.sampleDraws = if s.levels.isEmpty then s.sampleDraws + 1 else s.sampleDraws := by
  unfold State.dropLevel
  split <;> simp [*]

/-! ## Durations -/

@[simp] theorem duration_append (a b : List LineEvent) : duration (a ++ b) = duration a + duration b := by
  simp [duration]

@[simp] theorem duration_reverse (a : List LineEvent) : duration a.reverse = duration a := by
  simp [duration]

/-! ## Effects of the subroutines -/

theorem writeBit_effect (b : Bool) (s : State) :
    Pseudo.writeBit b s = { s with
      line := false
      trace := (writeEvents s.params.profile b).reverse ++ s.trace
      waitLeft := (if b then s.params.profile.tB else s.params.profile.tD).toNat / 4 * s.params.cyclesPerUs
      gap := s.params.eventLatency } := by
  cases b <;> rfl

/-- The environment's next answer is the same after anything that is not a sample. -/
@[simp] theorem State.perform_nextLevel (s : State) (e : LineEvent) : (s.perform e).nextLevel = s.nextLevel := rfl
@[simp] theorem State.drive_nextLevel (s : State) : s.drive.nextLevel = s.nextLevel := rfl
@[simp] theorem State.release_nextLevel (s : State) : s.release.nextLevel = s.nextLevel := rfl
@[simp] theorem State.delay_nextLevel (s : State) (t : Ticks) : (s.delay t).nextLevel = s.nextLevel := rfl

theorem readBit_level (s : State) : (Pseudo.readBit s).1 = s.nextLevel := by
  simp [Pseudo.readBit, Pseudo.sample, State.level]

theorem readBit_state (s : State) :
    (Pseudo.readBit s).2 = { s with
      levels := s.dropLevel.levels
      sampleDraws := s.dropLevel.sampleDraws
      line := false
      trace := (readEvents s.params.profile s.nextLevel).reverse ++ s.trace
      waitLeft := s.params.profile.tF.toNat / 4 * s.params.cyclesPerUs
      gap := s.params.eventLatency } := by
  simp only [Pseudo.readBit, Pseudo.sample, State.level, State.answered, State.delay_line, State.release_line,
    State.delay_nextLevel, State.release_nextLevel, State.drive_nextLevel, Bool.false_eq_true, if_false]
  apply State.ext <;> simp [dropLevel_levels, dropLevel_sampleDraws, readEvents]

theorem resetPresence_level (s : State) : (Pseudo.resetPresence s).1 = !s.nextLevel := by
  simp [Pseudo.resetPresence, Pseudo.sample, State.level]

theorem resetPresence_state (s : State) :
    (Pseudo.resetPresence s).2 = { s with
      levels := s.dropLevel.levels
      sampleDraws := s.dropLevel.sampleDraws
      line := false
      trace := (resetEvents s.params.profile s.nextLevel).reverse ++ s.trace
      waitLeft := s.params.profile.tJ.toNat / 4 * s.params.cyclesPerUs
      gap := s.params.eventLatency } := by
  simp only [Pseudo.resetPresence, Pseudo.sample, State.level, State.answered, State.delay_line, State.release_line,
    State.delay_nextLevel, State.release_nextLevel, State.drive_nextLevel, Bool.false_eq_true, if_false]
  apply State.ext <;> simp [dropLevel_levels, dropLevel_sampleDraws, resetEvents]

/-! ## The elements of a slot run as the subroutine -/

theorem runOps_writeBit (s : State) (b : Bool) (h : s.temps.stop = false) :
    runOps (writeBitOps s.params.profile b) s = Pseudo.writeBit b s := by
  cases b <;> simp [writeBitOps, runOps, h, State.doOp, Pseudo.writeBit]

/-- Taking an answer leaves the temporaries. -/
theorem runOps_sample_delay (s : State) (d : Dest) (t : Ticks) (h : s.temps.stop = false) :
    runOps [.sample d, .delay t] s = ((s.answered.perform (.sample s.level)).delay t).putSample d s.level := by
  cases d <;> simp [runOps, h, State.doOp, State.sample, State.putSample] <;> rfl

/-- A low pulse of `a` ticks and `b` ticks released, before whatever comes next. -/
theorem runOps_pulse (s : State) (a b : Ticks) (rest : List Op) (h : s.temps.stop = false) :
    runOps (.drive :: .delay a :: .release :: .delay b :: rest) s =
      runOps rest (((s.drive.delay a).release).delay b) := by
  simp [runOps, h, State.doOp]

theorem runOps_readBit (s : State) (d : Dest) (h : s.temps.stop = false) :
    runOps (readBitOps s.params.profile d) s = (Pseudo.readBit s).2.putSample d (Pseudo.readBit s).1 := by
  simp only [readBitOps, Pseudo.readBit, Pseudo.sample]
  rw [runOps_pulse _ _ _ _ h]
  exact runOps_sample_delay _ d _ (by simpa using h)

theorem runOps_resetPresence (s : State) (h : s.temps.stop = false) :
    runOps (resetPresenceOps s.params.profile) s =
      (Pseudo.resetPresence s).2.putSample .presence (!(Pseudo.resetPresence s).1) := by
  simp only [resetPresenceOps, Pseudo.resetPresence, Pseudo.sample, Bool.not_not]
  rw [runOps_pulse _ _ _ _ h]
  exact runOps_sample_delay _ _ _ (by simpa using h)

theorem runOps_writeDir (s : State) (h : s.temps.stop = false) :
    runOps (writeDirOps s.params.profile) s = Pseudo.writeBit s.temps.dir s := by
  cases hd : s.temps.dir <;> simp [writeDirOps, runOps, h, State.doOp, Pseudo.writeBit, hd]

end Sys2Proof.Machine
end

