-- ==== Sys2Proof/Laws/Transactor.lean ====
section
/-! SUPPORT. The byte subroutines of the transactor: their elements run as the spec's pseudocode. -/

namespace Sys2Proof.Machine

open Sys2Proof

/-! ## The subroutines do not see the temporaries -/

@[simp] theorem nextLevel_temps (s : State) (t : Temps) : ({ s with temps := t } : State).nextLevel = s.nextLevel := rfl

theorem dropLevel_temps (s : State) (t : Temps) :
    ({ s with temps := t } : State).dropLevel = { s.dropLevel with temps := t } := by
  apply State.ext <;> simp [dropLevel_levels, dropLevel_sampleDraws]

theorem writeBit_temps (b : Bool) (s : State) (t : Temps) :
    Pseudo.writeBit b { s with temps := t } = { Pseudo.writeBit b s with temps := t } := by
  simp [writeBit_effect]

theorem readBit_temps (s : State) (t : Temps) :
    Pseudo.readBit { s with temps := t } = ((Pseudo.readBit s).1, { (Pseudo.readBit s).2 with temps := t }) := by
  apply Prod.ext
  · simp [readBit_level]
  · simp [readBit_state, dropLevel_temps]

theorem touchBit_temps (v : Byte) (r : Byte) (s : State) (t : Temps) (i : Nat) :
    Pseudo.touchBit v (r, { s with temps := t }) i =
      ((Pseudo.touchBit v (r, s) i).1, { (Pseudo.touchBit v (r, s) i).2 with temps := t }) := by
  unfold Pseudo.touchBit
  split
  · simp [readBit_temps]
  · simp [writeBit_temps]

theorem touchFold_temps (v : Byte) (l : List Nat) (r : Byte) (s : State) (t : Temps) :
    l.foldl (Pseudo.touchBit v) (r, { s with temps := t }) =
      ((l.foldl (Pseudo.touchBit v) (r, s)).1, { (l.foldl (Pseudo.touchBit v) (r, s)).2 with temps := t }) := by
  induction l generalizing r s with
  | nil => rfl
  | cons i rest ih => rw [List.foldl_cons, List.foldl_cons, touchBit_temps, ih]

theorem touchByte_temps (v : Byte) (s : State) (t : Temps) :
    Pseudo.touchByte v { s with temps := t } =
      ((Pseudo.touchByte v s).1, { (Pseudo.touchByte v s).2 with temps := t }) :=
  touchFold_temps v _ _ s t

/-! ## What the subroutines leave alone -/

@[simp] theorem writeBit_params (b : Bool) (s : State) : (Pseudo.writeBit b s).params = s.params := by
  simp [writeBit_effect]

@[simp] theorem writeBit_frame_temps (b : Bool) (s : State) : (Pseudo.writeBit b s).temps = s.temps := by
  simp [writeBit_effect]

theorem touchBit_params (v : Byte) (x : Byte × State) (i : Nat) : (Pseudo.touchBit v x i).2.params = x.2.params := by
  unfold Pseudo.touchBit
  split <;> simp [readBit_state, writeBit_effect]

theorem touchBit_frame_temps (v : Byte) (x : Byte × State) (i : Nat) : (Pseudo.touchBit v x i).2.temps = x.2.temps := by
  unfold Pseudo.touchBit
  split <;> simp [readBit_state, writeBit_effect]

theorem touchBit_buf (v : Byte) (x : Byte × State) (i : Nat) : (Pseudo.touchBit v x i).2.buf = x.2.buf := by
  unfold Pseudo.touchBit
  split <;> simp [readBit_state, writeBit_effect]

theorem touchFold_frame (v : Byte) (l : List Nat) (x : Byte × State) :
    (l.foldl (Pseudo.touchBit v) x).2.params = x.2.params ∧ (l.foldl (Pseudo.touchBit v) x).2.temps = x.2.temps
      ∧ (l.foldl (Pseudo.touchBit v) x).2.buf = x.2.buf := by
  induction l generalizing x with
  | nil => exact ⟨rfl, rfl, rfl⟩
  | cons i rest ih =>
    obtain ⟨hp, ht, hb⟩ := ih (Pseudo.touchBit v x i)
    exact ⟨hp.trans (touchBit_params v x i), ht.trans (touchBit_frame_temps v x i), hb.trans (touchBit_buf v x i)⟩

theorem touchByte_frame (v : Byte) (s : State) :
    (Pseudo.touchByte v s).2.params = s.params ∧ (Pseudo.touchByte v s).2.temps = s.temps
      ∧ (Pseudo.touchByte v s).2.buf = s.buf :=
  touchFold_frame v _ (0, s)

/-! ## The elements run as the pseudocode -/

/-- A slot of a touch puts its bit in the byte temporary. -/
theorem runOps_touchBit (s : State) (v : Byte) (i : Nat) (h : s.temps.stop = false) :
    runOps (touchBitOps s.params.profile v i) s =
      { (Pseudo.touchBit v (s.temps.byte, s) i).2 with
        temps := { s.temps with byte := (Pseudo.touchBit v (s.temps.byte, s) i).1 } } := by
  unfold touchBitOps Pseudo.touchBit
  split
  · rw [runOps_readBit s _ h]
    simp [State.putSample, readBit_state]
  · rw [runOps_writeBit s false h]
    simp [writeBit_effect]

theorem runOps_touchFold (p : Profile) (v : Byte) (l : List Nat) (s : State) (hp : s.params.profile = p)
    (h : s.temps.stop = false) :
    runOps (l.flatMap (touchBitOps p v)) s =
      { (l.foldl (Pseudo.touchBit v) (s.temps.byte, s)).2 with
        temps := { s.temps with byte := (l.foldl (Pseudo.touchBit v) (s.temps.byte, s)).1 } } := by
  induction l generalizing s with
  | nil => rfl
  | cons i rest ih =>
    rw [List.flatMap_cons, runOps_append, ← hp, runOps_touchBit s v i h, hp]
    refine (ih _ ?_ ?_).trans ?_
    · rw [← hp, ← touchBit_params v (s.temps.byte, s) i]
    · exact h
    · rw [touchFold_temps]
      rfl

/-- `r <- TouchByte(v)`. -/
theorem runOps_touchByte (s : State) (v : Byte) (h : s.temps.stop = false) :
    runOps (touchByteOps s.params.profile v) s =
      { (Pseudo.touchByte v s).2 with temps := { s.temps with byte := (Pseudo.touchByte v s).1 } } := by
  rw [touchByteOps, runOps_cons _ _ _ h]
  refine (runOps_touchFold _ v _ _ ?_ ?_).trans ?_
  · rfl
  · exact h
  simp only [State.doOp, State.doAct]
  rw [touchFold_temps]
  rfl

/-- A read of a byte is a touch of 0xFF. -/
theorem readByteOps_touch (p : Profile) : readByteOps p = touchByteOps p 0xFF := by
  simp [readByteOps, touchByteOps, touchBitOps, List.range_succ]

/-- `WriteByte(v)`. -/
theorem runOps_writeByte (s : State) (v : Byte) (h : s.temps.stop = false) :
    runOps (writeByteOps s.params.profile v) s = Pseudo.writeByte v s := by
  have key : ∀ (l : List Nat) (t : State), t.temps.stop = false →
      runOps (l.flatMap fun i => writeBitOps t.params.profile (v.getLsbD i)) t =
        l.foldl (fun t i => Pseudo.writeBit (v.getLsbD i) t) t := by
    intro l
    induction l with
    | nil => intros; rfl
    | cons i rest ih =>
      intro t ht
      have hrun := ih (Pseudo.writeBit (v.getLsbD i) t) (by simpa using ht)
      rw [writeBit_params] at hrun
      rw [List.flatMap_cons, runOps_append, runOps_writeBit t _ ht, hrun]
      rfl
  exact key (List.range 8) s h

theorem blockTouch_temps (count k : Nat) (s : State) (t : Temps) :
    Pseudo.blockTouch count k { s with temps := t } = { Pseudo.blockTouch count k s with temps := t } := by
  induction count generalizing k s with
  | zero => rfl
  | succ count ih =>
    simp only [Pseudo.blockTouch]
    rw [← ih, touchByte_temps]
    rfl

/-- `BUF[k] <- TouchByte(BUF[k])` along the bytes that stand in BUF from `k` on. -/
theorem runOps_touchBuf (p : Profile) (l : List Byte) (k : Nat) (s : State) (hp : s.params.profile = p)
    (h : s.temps.stop = false) (hl : ∀ j, j < l.length → s.bufByte (k + j) = l[j]?) :
    ∃ b, runOps (touchBufOps p k l) s =
      { Pseudo.blockTouch l.length k s with temps := { s.temps with byte := b } } := by
  induction l generalizing k s with
  | nil => exact ⟨s.temps.byte, rfl⟩
  | cons v rest ih =>
    have hv : s.bufByte k = some v := by simpa using hl 0 (by simp)
    obtain ⟨hpar, htem, hbuf⟩ := touchByte_frame v s
    have key : ∀ u : State, u.params = s.params → u.temps = { s.temps with byte := (Pseudo.touchByte v s).1 } →
        u.buf = s.buf.set k (Pseudo.touchByte v s).1 → ∃ b, runOps (touchBufOps p (k + 1) rest) u =
          { Pseudo.blockTouch rest.length (k + 1) u with temps := { s.temps with byte := b } } := by
      intro u hup hut hub
      obtain ⟨b, hb⟩ := ih (k + 1) u (by rw [hup, hp]) (by rw [hut]; exact h) (by
        intro j hj
        have := hl (j + 1) (by simpa using hj)
        simp only [State.bufByte, hub] at this ⊢
        rw [List.getElem?_set_ne (by omega), show k + 1 + j = k + (j + 1) by omega, this]
        simp)
      exact ⟨b, by rw [hb, hut]⟩
    obtain ⟨b, hb⟩ := key ({ (Pseudo.touchByte v s).2.setBufByte k (Pseudo.touchByte v s).1 with
      temps := { s.temps with byte := (Pseudo.touchByte v s).1 } }) hpar rfl (by simp [State.setBufByte, hbuf])
    refine ⟨b, ?_⟩
    rw [touchBufOps, runOps_append, ← hp, runOps_touchByte s v h, hp, runOps_cons _ _ _ (by exact h)]
    refine hb.trans ?_
    rw [blockTouch_temps]
    simp only [List.length_cons, Pseudo.blockTouch, hv, Option.getD_some]

end Sys2Proof.Machine
end

