-- ==== Sys2Proof/Laws/Search.lean ====
section
/-! SUPPORT. The loop and the end of a search pass: their elements run as the spec's pseudocode. -/

namespace Sys2Proof.Machine

open Sys2Proof

/-! ## The pseudocode does not see the temporaries -/

theorem searchEnd_temps (ok : Bool) (lz : Pos) (s : State) (t : Temps) :
    Pseudo.searchEnd ok lz { s with temps := t } =
      ((Pseudo.searchEnd ok lz s).1, { (Pseudo.searchEnd ok lz s).2 with temps := t }) := by
  simp only [Pseudo.searchEnd]
  split
  · rfl
  split
  · rfl
  split <;> rfl

theorem writeByte_temps (v : Byte) (s : State) (t : Temps) :
    Pseudo.writeByte v { s with temps := t } = { Pseudo.writeByte v s with temps := t } := by
  have key : ∀ (l : List Nat) (s : State), l.foldl (fun s i => Pseudo.writeBit (v.getLsbD i) s) { s with temps := t } =
      { l.foldl (fun s i => Pseudo.writeBit (v.getLsbD i) s) s with temps := t } := by
    intro l
    induction l with
    | nil => intro; rfl
    | cons i rest ih => intro s; rw [List.foldl_cons, List.foldl_cons, writeBit_temps, ih]
  exact key _ s

theorem resetPresence_temps (s : State) (t : Temps) :
    Pseudo.resetPresence { s with temps := t } =
      ((Pseudo.resetPresence s).1, { (Pseudo.resetPresence s).2 with temps := t }) := by
  apply Prod.ext
  · simp [resetPresence_level]
  · simp [resetPresence_state, dropLevel_temps]

/-! ## One position -/

/-- A position's decision on its two reads: none for an abort, else the direction and whether a 0 was chosen at a
discrepancy (42_search.md R165, R166, R167). -/
def decision (id cmp : Bool) (n : Pos) (s : State) : Option (Bool × Bool) :=
  if id && cmp then none
  else if id != cmp then some (id, false)
  else
    let dir := if n < s.lastDisc then s.rom.getLsbD (n.toNat - 1) else decide (n = s.lastDisc)
    some (dir, !dir)

/-- The rest of a position after the decision (R167 to R169). -/
def afterDecision (n : Pos) (dir zero : Bool) (s : State) : State :=
  let s : State := { s with lastFamDisc := if zero && decide (n < 9) then n else s.lastFamDisc }
  let s := Pseudo.writeBit dir { s with rom := setBit s.rom (n.toNat - 1) dir }
  if n.toNat % 8 = 0 then { s with crc := crc8Update s.crc (romByte s.rom (n.toNat / 8 - 1)) } else s

/-- The loop, a position at a time, through the decision. -/
theorem searchLoop_succ (left : Nat) (n lz : Pos) (s : State) :
    Pseudo.searchLoop (left + 1) n lz s =
      let x := Pseudo.readBit s
      let y := Pseudo.readBit x.2
      match decision x.1 y.1 n y.2 with
      | none => (false, lz, y.2)
      | some (dir, zero) =>
        Pseudo.searchLoop left (n + 1) (if zero then n else lz) (afterDecision n dir zero y.2) := by
  simp only [Pseudo.searchLoop, decision, afterDecision]
  generalize (Pseudo.readBit s).1 = id
  generalize (Pseudo.readBit s).2 = s1
  generalize (Pseudo.readBit s1).1 = cmp
  generalize (Pseudo.readBit s1).2 = s2
  cases id <;> cases cmp <;> simp

/-- What the rest of a position does to the fields a pass builds up (R168, R169). -/
theorem afterDecision_trace (n : Pos) (dir zero : Bool) (s : State) :
    (afterDecision n dir zero s).trace = (writeEvents s.params.profile dir).reverse ++ s.trace := by
  simp only [afterDecision, writeBit_effect]
  split <;> rfl

theorem afterDecision_params (n : Pos) (dir zero : Bool) (s : State) : (afterDecision n dir zero s).params = s.params := by
  simp only [afterDecision, writeBit_effect]
  split <;> rfl

theorem afterDecision_rom (n : Pos) (dir zero : Bool) (s : State) :
    (afterDecision n dir zero s).rom = setBit s.rom (n.toNat - 1) dir := by
  simp only [afterDecision, writeBit_effect]
  split <;> rfl

theorem afterDecision_crc (n : Pos) (dir zero : Bool) (s : State) :
    (afterDecision n dir zero s).crc = if n.toNat % 8 = 0 then
      crc8Update s.crc (romByte (setBit s.rom (n.toNat - 1) dir) (n.toNat / 8 - 1)) else s.crc := by
  simp only [afterDecision, writeBit_effect]
  split <;> rfl

theorem afterDecision_temps (n : Pos) (dir zero : Bool) (s : State) (t : Temps) :
    afterDecision n dir zero { s with temps := t } = { afterDecision n dir zero s with temps := t } := by
  simp only [afterDecision, writeBit_effect]
  split <;> rfl

theorem searchLoop_temps (left : Nat) (n lz : Pos) (s : State) (t : Temps) :
    Pseudo.searchLoop left n lz { s with temps := t } =
      ((Pseudo.searchLoop left n lz s).1, (Pseudo.searchLoop left n lz s).2.1,
        { (Pseudo.searchLoop left n lz s).2.2 with temps := t }) := by
  induction left generalizing n lz s with
  | zero => rfl
  | succ left ih =>
    rw [searchLoop_succ, searchLoop_succ]
    simp only [readBit_temps]
    have hd : ∀ (a b : Bool) (u : State), decision a b n { u with temps := t } = decision a b n u := fun _ _ _ => rfl
    rw [hd]
    split
    · rfl
    · rw [afterDecision_temps, ih]

/-! ## The elements run as the pseudocode -/

/-- Steps 5 to 7. -/
theorem passEnd_effect (s : State) :
    s.passEnd = { (Pseudo.searchEnd s.temps.ok s.temps.lastZero s).2 with
      temps := { s.temps with res := (Pseudo.searchEnd s.temps.ok s.temps.lastZero s).1, stop := true } } := by
  simp only [State.passEnd, Pseudo.searchEnd]
  split
  · rfl
  split
  · rfl
  split <;> rfl

/-- The decision, as the sequencer makes it. -/
theorem direction_effect (s : State) :
    s.direction = match decision s.temps.idBit s.temps.cmpBit s.temps.n s with
      | none => ({ s with temps := { s.temps with ok := false } } : State).passEnd
      | some (dir, zero) => { s with
          lastFamDisc := if zero && decide (s.temps.n < 9) then s.temps.n else s.lastFamDisc
          rom := setBit s.rom (s.temps.n.toNat - 1) dir
          temps := { s.temps with dir := dir, lastZero := if zero then s.temps.n else s.temps.lastZero } } := by
  unfold State.direction decision
  split
  · rfl
  split
  · rfl
  have hb : s.branch = if s.temps.n < s.lastDisc then s.rom.getLsbD (s.temps.n.toNat - 1)
      else decide (s.temps.n = s.lastDisc) := rfl
  rw [hb]
  generalize (if s.temps.n < s.lastDisc then s.rom.getLsbD (s.temps.n.toNat - 1)
    else decide (s.temps.n = s.lastDisc)) = dir
  cases dir
  · simp [State.recordZero, State.take]
  · simp [State.take]

/-- A position that goes on: its write slot, the fold and the next position. -/
theorem runOps_writeAdvance (s : State) (h : s.temps.stop = false) :
    runOps (writeDirOps s.params.profile ++ [.act .advance]) s =
      ({ Pseudo.writeBit s.temps.dir s with
        crc := if s.temps.n.toNat % 8 = 0 then crc8Update s.crc (romByte s.rom (s.temps.n.toNat / 8 - 1)) else s.crc
        temps := { s.temps with n := s.temps.n + 1 } } : State) := by
  rw [runOps_append, runOps_writeDir s h, runOps_cons _ _ _ (by simpa using h)]
  simp [runOps, State.doOp, State.doAct, State.advance, writeBit_effect]

/-- The two read slots of a position. -/
theorem runOps_readPair (p : Profile) (rest : List Op) (s : State) (hp : s.params.profile = p)
    (h : s.temps.stop = false) :
    runOps (readBitOps p .idBit ++ (readBitOps p .cmpBit ++ rest)) s =
      runOps rest { (Pseudo.readBit (Pseudo.readBit s).2).2 with
        temps := { s.temps with
          idBit := (Pseudo.readBit s).1, cmpBit := (Pseudo.readBit (Pseudo.readBit s).2).1 } } := by
  have h1 : runOps (readBitOps p .idBit) s =
      { (Pseudo.readBit s).2 with temps := { s.temps with idBit := (Pseudo.readBit s).1 } } := by
    rw [← hp, runOps_readBit s _ h]
    simp [State.putSample, readBit_state]
  have h2 : ∀ u : State, u.params = s.params → u.temps.stop = false → runOps (readBitOps p .cmpBit) u =
      { (Pseudo.readBit u).2 with temps := { u.temps with cmpBit := (Pseudo.readBit u).1 } } := by
    intro u hu hs
    rw [← hp, ← hu, runOps_readBit u _ hs]
    simp [State.putSample, readBit_state]
  rw [runOps_append, h1, runOps_append, h2 _ (by simp [readBit_state]) (by exact h), readBit_temps]

/-- `r` is the end of a pass whose loop ended with `y`: steps 5 to 7 on it, with the outcome in the temporaries. -/
def PassEnds (r : State) (t0 : Temps) (y : Bool × Pos × State) : Prop :=
  ∃ t : Temps, t.p = t0.p ∧ t.pSeen = t0.pSeen ∧ t.stop = true ∧ t.res = (Pseudo.searchEnd y.1 y.2.1 y.2.2).1
    ∧ r = { (Pseudo.searchEnd y.1 y.2.1 y.2.2).2 with temps := t }

theorem passEnds_temps {r : State} {t0 : Temps} {a : Bool} {b : Pos} {c : State} {T : Temps}
    (h : PassEnds r t0 (a, b, { c with temps := T })) : PassEnds r t0 (a, b, c) := by
  obtain ⟨t, hp, hs, hst, hr, he⟩ := h
  rw [searchEnd_temps] at hr he
  exact ⟨t, hp, hs, hst, hr, he⟩

theorem passEnds_passEnd (s : State) : PassEnds s.passEnd s.temps (s.temps.ok, s.temps.lastZero, s) := by
  rw [passEnd_effect]
  exact ⟨{ s.temps with res := (Pseudo.searchEnd s.temps.ok s.temps.lastZero s).1, stop := true },
    rfl, rfl, rfl, rfl, rfl⟩

/-- The rest of a position that goes on, from the decision. -/
theorem runOps_goOn (u : State) (n : Pos) (dir zero : Bool) (T : Temps) (hn : T.n = n) (hd : T.dir = dir)
    (h : T.stop = false) :
    runOps (writeDirOps u.params.profile ++ [.act .advance])
      { u with
        lastFamDisc := if zero && decide (n < 9) then n else u.lastFamDisc
        rom := setBit u.rom (n.toNat - 1) dir
        temps := T } =
      { afterDecision n dir zero u with temps := { T with n := T.n + 1 } } := by
  refine (runOps_writeAdvance _ (by exact h)).trans ?_
  subst hn hd
  simp only [afterDecision, writeBit_effect]
  split <;> rfl

/-- The positions that are left, and steps 5 to 7: the run ends with the pass's outcome and state. -/
theorem runOps_searchLoop (p : Profile) (left : Nat) (s : State) (hp : s.params.profile = p)
    (h : s.temps.stop = false) (hok : s.temps.ok = true) :
    PassEnds (runOps (positionsOps p left ++ [.act .passEnd]) s) s.temps
      (Pseudo.searchLoop left s.temps.n s.temps.lastZero s) := by
  induction left generalizing s with
  | zero =>
    have he := passEnds_passEnd s
    rw [hok] at he
    rw [positionsOps, List.nil_append, runOps_cons _ _ _ h]
    exact he
  | succ left ih =>
    rw [positionsOps, List.append_assoc, runOps_append]
    have hpos : runOps (positionOps p) s = _ := runOps_readPair p _ s hp h
    rw [hpos, searchLoop_succ]
    clear hpos
    have hpar : (Pseudo.readBit (Pseudo.readBit s).2).2.params = s.params := by simp [readBit_state]
    simp only
    generalize (Pseudo.readBit s).1 = id
    generalize (Pseudo.readBit (Pseudo.readBit s).2).1 = cmp
    generalize (Pseudo.readBit (Pseudo.readBit s).2).2 = u at hpar ⊢
    rw [runOps_cons _ _ _ (by exact h)]
    simp only [State.doOp, State.doAct]
    rw [direction_effect]
    have hd : ∀ t : Temps, decision id cmp s.temps.n { u with temps := t } = decision id cmp s.temps.n u := fun _ => rfl
    simp only [hd]
    cases hdec : decision id cmp s.temps.n u with
    | none =>
      simp only
      have he := passEnds_passEnd ({ u with temps := { s.temps with idBit := id, cmpBit := cmp, ok := false } } : State)
      rw [runOps_of_stop _ (State.passEnd _) (by rw [passEnd_effect]),
        runOps_of_stop _ (State.passEnd _) (by rw [passEnd_effect])]
      exact passEnds_temps he
    | some d =>
      obtain ⟨dir, zero⟩ := d
      simp only
      have hq : u.params.profile = p := by rw [hpar, hp]
      have hgo := runOps_goOn u s.temps.n dir zero
      rw [hq] at hgo
      rw [hgo _ (by rfl) (by rfl) (by exact h)]
      have hi := ih { afterDecision s.temps.n dir zero u with temps := { s.temps with
        idBit := id, cmpBit := cmp, dir := dir
        lastZero := if zero then s.temps.n else s.temps.lastZero, n := s.temps.n + 1 } }
        (by rw [← hq]; unfold afterDecision; simp only [writeBit_effect]; split <;> rfl) h hok
      rw [searchLoop_temps] at hi
      exact passEnds_temps hi

end Sys2Proof.Machine
end

