-- ==== Sys2Proof/Tests/Slice0.lean ====
section
/-! SUPPORT. The model's own tests, each from the spec's text or its vectors (95_test_vectors.md), and a witness for the
hypotheses of every obligation that has some. -/

namespace Sys2Proof.Tests

open Sys2Proof Sys2Proof.Machine

/-! ## Helpers -/

/-- The default instance right after reset, with BUF all zero (BUF is unspecified after reset). -/
def st : State := { State.resetOf Config.defaultParams with buf := List.replicate 16 0 }

/-- `st` with a command word just accepted. -/
def busySt (w : Word) : State := { st with busy := true, cur := w }

/-- The state a command ends in. -/
def after (i : Instr) (s : State) : State :=
  match exec i s with
  | .next t => t
  | .fault _ => s
  | .refused _ => s

/-- The state a step ends in, none where it ends in none. -/
def stepped (s : State) : Option State :=
  match step s with
  | .next t => some t
  | .fault _ => none
  | .refused _ => none

/-- The levels the read slots of a search pass see of some devices when the pass takes `path`, `left` positions from bit
`k` on (95_test_vectors.md section 2). -/
def busAnswers (devs : List RomCode) (path : RomCode) : Nat → Nat → List Bool
  | 0, _ => []
  | left + 1, k =>
    devs.all (fun d => d.getLsbD k) :: devs.all (fun d => !d.getLsbD k) ::
      busAnswers (devs.filter fun d => d.getLsbD k == path.getLsbD k) path left (k + 1)

/-- The levels of a whole pass, the presence sample first. -/
def passAnswers (devs : List RomCode) (path : RomCode) : List Bool := false :: busAnswers devs path 64 0

/-- Device A of 95_test_vectors.md. -/
def devA : RomCode := 0x9E06050403020128

/-- Device B of 95_test_vectors.md. -/
def devB : RomCode := 0xC007050403020128

/-! ## Well-formedness: one check, the block length (30_encoding.md R84) -/

theorem test_wf_block_bound : Instr.wf 16 (.owBlockTouch 16) = true ∧ Instr.wf 16 (.owBlockTouch 17) = false := by decide

theorem test_wf_refused_by_decode :
    decode 16 (encode (.owBlockTouch 17)) = .error (.blockTooLong 17) ∧ decodeTableWord 32 0x00001107 = none := by
  decide

/-! ## Decoding: words written out bit by bit from R80 to R82 (IMM16, IMM8, OP) and from the vectors -/

theorem test_decode_owReset : decode 16 0b0000000000000000_00000000_00000001 = .ok .owReset := by decide
theorem test_decode_owWriteBit_one : decode 16 0b0000000000000000_00000001_00000010 = .ok (.owWriteBit true) := by decide
/-- V-T5. -/
theorem test_decode_owWriteBit_fe : decode 16 0b0000000000000000_11111110_00000010 = .ok (.owWriteBit false) := by decide
theorem test_decode_owReadBit : decode 16 0b0000000000000000_00000000_00000011 = .ok .owReadBit := by decide
theorem test_decode_owWriteByte : decode 16 0b0000000000000000_11110000_00000100 = .ok (.owWriteByte 0xF0) := by decide
theorem test_decode_owReadByte : decode 16 0b0000000000000000_00000000_00000101 = .ok .owReadByte := by decide
theorem test_decode_owTouchByte : decode 16 0b0000000000000000_10100101_00000110 = .ok (.owTouchByte 0xA5) := by decide
theorem test_decode_owBlockTouch : decode 16 0b0000000000000000_00010000_00000111 = .ok (.owBlockTouch 16) := by decide
theorem test_decode_owSearchFirst : decode 16 0b0000000000000000_00000000_00001000 = .ok .owSearchFirst := by decide
theorem test_decode_owSearchNext : decode 16 0b0000000000000000_00000000_00001001 = .ok .owSearchNext := by decide
theorem test_decode_crc8Update : decode 16 0b0000000000000000_00101000_00001010 = .ok (.crc8Update 0x28) := by decide
/-- V-D6: IMM8 is ignored. -/
theorem test_decode_delay : decode 16 0b0000011111010000_11111111_00001011 = .ok (.delay 2000) := by decide
theorem test_decode_illegal :
    decode 16 0 = .error (.noSuchOp 0) ∧ decode 16 0x0000000C = .error (.noSuchOp 0x0C)
      ∧ decode 16 0x000000FF = .error (.noSuchOp 0xFF) := by decide
theorem test_decodeTableWord_short : decodeTableWord 8 0x07 = some (.owBlockTouch 0) := by decide

/-! ## The CRC8 table (43_crc8.md R201) -/

/-- The corners of the table, and TABLE[0x80], which is the polynomial. -/
theorem test_crc_table :
    crc8Table 0x00 = 0x00 ∧ crc8Table 0x0F = 0x41 ∧ crc8Table 0x80 = 0x8C ∧ crc8Table 0xF0 = 0x74
      ∧ crc8Table 0xFF = 0x35 := by decide

/-! ## Commands, one step each -/

/-- V-T1. -/
theorem test_owReset_present :
    (after .owReset { st with levels := [false] }).statusWord = 0x2
      ∧ (after .owReset { st with levels := [false] }).trace.reverse =
        [.drive, .wait 480, .release, .wait 70, .sample false, .wait 410] := by decide

/-- V-T2. -/
theorem test_owReset_absent : (after .owReset { st with presence := true, levels := [true] }).statusWord = 0 := by decide

/-- V-T3. -/
theorem test_owWriteBit_one : (after (.owWriteBit true) st).trace.reverse = [.drive, .wait 6, .release, .wait 64] := by
  decide

/-- V-T4. -/
theorem test_owWriteBit_zero : (after (.owWriteBit false) st).trace.reverse = [.drive, .wait 60, .release, .wait 10] := by
  decide

/-- V-T6. -/
theorem test_owReadBit_one :
    (after .owReadBit { st with levels := [true] }).data = 0x01
      ∧ (after .owReadBit { st with levels := [true] }).trace.reverse =
        [.drive, .wait 6, .release, .wait 9, .sample true, .wait 55] := by decide

/-- V-T6b: bits 7:1 are cleared too. -/
theorem test_owReadBit_clears : (after .owReadBit { st with data := 0x05, levels := [false] }).data = 0x00 := by decide

/-- V-T8: least significant bit first. -/
theorem test_owWriteByte_order :
    (after (.owWriteByte 0x01) st).trace.reverse.take 6 =
        [.drive, .wait 6, .release, .wait 64, .drive, .wait 60]
      ∧ (after (.owWriteByte 0x01) st).trace.length = 32 := by decide +kernel

/-- V-T9a. -/
theorem test_owReadByte_order :
    (after .owReadByte { st with levels := [true, false, true, false, false, false, false, false] }).data = 0x05 := by
  decide +kernel

/-- V-T9b: the last sample is the most significant bit. -/
theorem test_owReadByte_last :
    (after .owReadByte { st with levels := [false, false, false, false, false, false, false, true] }).data = 0x80 := by
  decide +kernel

/-- V-T10. -/
theorem test_owTouchByte_a5 :
    (after (.owTouchByte 0xA5) { st with levels := [true, true, false, true] }).data = 0x85
      ∧ (after (.owTouchByte 0xA5) { st with levels := [true, true, false, true] }).trace.length = 40 := by
  decide +kernel

/-- V-T13. -/
theorem test_owTouchByte_empty_bus :
    (after (.owTouchByte 0x3C) { st with levels := [true, true, true, true, true] }).data = 0x3C := by decide +kernel

/-- P3: BUF[0..3] = 55 FF 00 00, three bytes touched. -/
theorem test_owBlockTouch_in_place :
    (after (.owBlockTouch 3) { st with
      buf := [0x55, 0xFF, 0x00, 0x00, 0xFF] ++ List.replicate 11 0
      levels := [true, true, true, true, false, false, true, true, true, true, false, false] }).buf.take 5 =
        [0x55, 0x3C, 0x00, 0x00, 0xFF] := by decide +kernel

/-- V-T16. -/
theorem test_owBlockTouch_zero :
    (after (.owBlockTouch 0) (busySt 0x7)).trace = [] ∧ (after (.owBlockTouch 0) (busySt 0x7)).busy = false := by decide

/-- V-S3a. -/
theorem test_owSearchFirst_two_devices :
    let t := after .owSearchFirst { st with levels := passAnswers [devA, devB] devA }
    t.statusWord = 0x16 ∧ t.rom = devA ∧ t.srchWord = 0x31 ∧ t.crc = 0 ∧ t.trace.length = 1062 := by decide +kernel

/-- V-S12: a set LAST_DEV_FLAG does not stop it. -/
theorem test_owSearchFirst_after_exhausted :
    let t := after .owSearchFirst { st with lastDevFlag := true, levels := passAnswers [devA] devA }
    t.statusWord = 0x16 ∧ t.rom = devA ∧ t.srchWord = 0x80 := by decide +kernel

/-- V-S10. -/
theorem test_owSearchNext_restored :
    let t := after .owSearchNext { st with lastDisc := 0x31, rom := devA, levels := passAnswers [devA, devB] devB }
    t.statusWord = 0x16 ∧ t.rom = devB ∧ t.srchWord = 0x80 ∧ t.crc = 0 := by decide +kernel

/-- V-S9: LAST_DISC 65 reuses the stored bit at every discrepancy. -/
theorem test_owSearchNext_past_the_end :
    let t := after .owSearchNext { st with lastDisc := 65, rom := devB, levels := passAnswers [devA, devB] devB }
    t.statusWord = 0x16 ∧ t.rom = devB ∧ t.srchWord = 0x80 := by decide +kernel

/-- P2: CRC8 0x28 from 0, then 0x01. -/
theorem test_crc8Update_fold :
    (after (.crc8Update 0x28) st).crc = 0xE1 ∧ (after (.crc8Update 0x01) { st with crc := 0xE1 }).crc = 0xE9 := by decide

/-- V-D3 and V-D5. -/
theorem test_delay_floor :
    (after (.delay 2000) st).trace = [.wait 500] ∧ (after (.delay 65535) st).trace = [.wait 16383] := by decide

/-- V-D2: the division is floor. -/
theorem test_delay_small : (after (.delay 7) st).trace = [.wait 1] ∧ (after (.delay 3) st).trace = [.wait 0] := by decide

/-! ## Host accesses -/

/-- V-T18 and V-H13: an illegal word sets ILL while idle and OVR while BUSY. -/
theorem test_illegal_word :
    (stepped { st with inputs := [.hostWrite 0 4 0x00001107] }).map State.statusWord = some 0x200
      ∧ (stepped { busySt 1 with inputs := [.hostWrite 0 4 0] }).map State.statusWord = some 0x101 := by decide

/-- V-H14. -/
theorem test_sticky_clear :
    (stepped { busySt 1 with ovr := true, ill := true, inputs := [.hostWrite 4 4 0x300] }).map State.statusWord = some 1 := by
  decide

/-- V-D8: T_A to T_J after reset; V-R1: INFO. -/
theorem test_constants_read :
    [0x1C, 0x20, 0x24, 0x28, 0x2C, 0x30, 0x34, 0x38, 0x3C, 0x40, 0x44].map (fun off => st.readReg (regAt 16 off)) =
      [0x10, 0x18, 0x100, 0xF0, 0x28, 0x24, 0xDC, 0, 0x780, 0x118, 0x668] := by decide

/-- P3: the packing of BUF. -/
theorem test_buf_packing :
    (stepped { st with inputs := [.hostWrite 0x80 4 0x0000FF55] }).map (fun s => s.buf.take 4) =
      some [0x55, 0xFF, 0x00, 0x00] := by decide

/-- The placed command is the one the next step runs (30_encoding.md R87: `CRC8 0x28` is 0x0000280A). -/
theorem test_withFetchWord : (stepped (st.withFetchWord 32 0x0000280A)).map State.crc = some 0xE1 := by decide

/-- 00_scope.md R8: a host line's accesses; R88: X is the write of CMD, then POLL. -/
theorem test_host_line :
    (HostLine.x (.crc8Update 0x28)).inputs 0x100 = [.hostWrite 0x100 4 0x280A, .run, .hostRead 0x104 4] := by decide

/-! ## Witnesses: for every obligation with hypotheses, concrete values that meet them together

The states differ from `st` in what a hypothesis asks. An obligation about every state or every word has none. -/

theorem witness_DecodeOfEncode :
    (Instr.owBlockTouch 64).wf 64 = true ∧ (Instr.owBlockTouch 0).wf 4 = true ∧ (Instr.delay 65535).wf 16 = true := by
  decide

theorem witness_EncodeOfDecode :
    decode 16 0x12341007 = .ok (.owBlockTouch 16) ∧ decode 16 0x07D0FF0B = .ok (.delay 2000) := by decide

theorem witness_EveryWordLegalOrIllegal :
    legal 16 0x00000001 = true ∧ legal 16 0x0000000B = true ∧ legal 16 0x00001007 = true
      ∧ legal 16 0x00000000 = false ∧ legal 16 0x0000000C = false ∧ legal 16 0x00001107 = false := by decide

theorem witness_UnusedFieldsIgnored : ∃ t, step (st.placeCommand 0x07D0FF0B) = .next t := ⟨_, rfl⟩

theorem witness_AssemblerWords :
    assemble 16 .owDotBlock (some 16) = some 0x00001007 ∧ assemble 16 .owDotBlock (some 17) = none
      ∧ assemble 16 .owDotWbit (some 1) = some 0x00000102 ∧ assemble 16 .owDotWbyte (some 255) = some 0x0000FF04
      ∧ assemble 16 .delay (some 65535) = some 0xFFFF000B := by decide

theorem witness_StepRunsTheAcceptedCommand :
    (busySt 0x1).inReset = false ∧ (busySt 0x1).busy = true ∧ (busySt 0x1).progress = none
      ∧ decode (busySt 0x1).params.blockMax (busySt 0x1).cur = .ok .owReset ∧ (busySt 0x1).inputs = []
      ∧ ({ busySt 0x1 with inputs := [.run, .sequencer] } : State).inputs = .run :: [.sequencer] := by decide

theorem witness_CmdWriteIsHandledAtOnce :
    st.inReset = false
      ∧ ({ st with inputs := [.hostWrite 0 4 0x1] } : State).inputs = .hostWrite (st.params.owBase + 0x00) 4 0x1 :: []
      ∧ st.busy = false ∧ (busySt 0x1).busy = true ∧ legal st.params.blockMax 0x1 = true
      ∧ legal st.params.blockMax 0x1107 = false := by decide

theorem witness_OnlyCmdWriteStartsACommand :
    st.busy = false ∧ (stepped { st with inputs := [.hostWrite 0 4 0x1] }).map State.busy = some true := by decide

theorem witness_StatusHeldWhileBusy :
    (stepped { st with inputs := [.hostWrite 0 4 0x1] }).map State.busy = some true
      ∧ (stepped { busySt 0x1 with inputs := [.sequencer] }).map State.busy = some true := by decide

theorem witness_ParametersNeverChange :
    (∃ t, step { st with inputs := [.resetAssert] } = .next t) ∧ ∃ t, step (busySt 0x1) = .next t :=
  ⟨⟨_, rfl⟩, _, rfl⟩

theorem witness_OvrRisesAndFalls :
    (busySt 0x1).ovr = false
      ∧ (stepped { busySt 0x1 with inputs := [.hostWrite 0x44 4 0] }).map State.ovr = some true
      ∧ (stepped { st with ovr := true, inputs := [.hostWrite 4 4 0x100] }).map State.ovr = some false
      ∧ (stepped { st with ovr := true, inputs := [.resetAssert] }).map State.ovr = some false := by decide

theorem witness_IllRisesAndFalls :
    st.ill = false ∧ (stepped { st with inputs := [.hostWrite 0 4 0] }).map State.ill = some true
      ∧ (stepped { st with ill := true, inputs := [.hostWrite 4 4 0x200] }).map State.ill = some false
      ∧ (stepped { st with ill := true, inputs := [.resetAssert] }).map State.ill = some false := by decide

/-- The offsets where the clauses meet: 0x04; 0x44 and 0x48; 0x80, the last BUF word 0x8C and 0x90 of 16 bytes. -/
theorem witness_WriteWhileBusy :
    (busySt 0x1).inReset = false ∧ (busySt 0x1).busy = true
      ∧ [0x04, 0x44, 0x48, 0x7C, 0x80, 0x8C, 0x90, 0xFC].all (fun off => off < 256 && off % 4 == 0) = true
      ∧ [0x04, 0x44, 0x48, 0x7C, 0x80, 0x8C, 0x90, 0xFC].map
        (fun off => (stepped { busySt 0x1 with inputs := [.hostWrite off 4 0x300] }).map State.ovr) =
          [some false, some true, some false, some false, some true, some true, some false, some false] := by decide

/-- The offsets where the clauses meet: 0x04, 0x08, 0x18, 0x1C, 0x80, 0x8C, 0x90. -/
theorem witness_ReadWhileBusy :
    (busySt 0x1).inReset = false ∧ (busySt 0x1).busy = true
      ∧ [0x04, 0x08, 0x18, 0x1C, 0x80, 0x8C, 0x90].map
        (fun off => (stepped { busySt 0x1 with inputs := [.hostRead off 4] }).map State.readDraws) =
          [some 0, some 1, some 1, some 0, some 1, some 1, some 0] := by decide

theorem witness_ReadWhileIdle :
    st.inReset = false ∧ st.busy = false
      ∧ (stepped { st with inputs := [.hostRead 0x1C 4] }).map State.replies = some [0x10] := by decide

theorem witness_WriteWhileIdle :
    st.inReset = false ∧ st.busy = false
      ∧ (stepped { st with inputs := [.hostWrite 0x0C 4 0x1A5] }).map State.crc = some 0xA5 := by decide

/-- The last word and the last byte of BUF are in range, and a byte outside a word is. -/
theorem witness_RegisterWindow :
    st.busy = false ∧ 3 < st.params.blockMax / 4 ∧ 4 * 3 + 3 < st.buf.length ∧ 11 / 4 ≠ 3
      ∧ (0x48 % 4 = 0 ∧ 0x44 < 0x48 ∧ 0x48 < 0x80) ∧ 0x90 % 4 = 0 ∧ 0x80 ≤ 0x90 ∧ st.params.blockMax ≤ 0x90 - 0x80 := by
  decide

theorem witness_ReservedOffsetsAreInert :
    st.inReset = false
      ∧ [0x48, 0x7C, 0x90, 0xFC].all (fun off => off < 256 && off % 4 == 0
        && (decide (0x44 < off ∧ off < 0x80) || decide (0x80 ≤ off ∧ st.params.blockMax ≤ off - 0x80))) = true := by
  decide

theorem witness_PackingIsLittleEndian : 4 * 3 + 3 < st.buf.length := by decide

theorem witness_UndefinedAccessIsRefused :
    st.inReset = false ∧ stepped { st with inputs := [.hostRead 0 1] } = none
      ∧ stepped { st with inputs := [.hostWrite 0xFE 4 0] } = none ∧ ((1 ≠ 4 ∨ 0 % 4 ≠ 0) ∧ (4 ≠ 4 ∨ 0xFE % 4 ≠ 0)) := by
  decide

theorem witness_HostWriteCannotDisturbACommand : (busySt 0x1).busy = true := by decide

theorem witness_BlockReset :
    ({ busySt 0x1 with inputs := [.resetAssert] } : State).inputs = .resetAssert :: []
      ∧ ({ st with inReset := true, inputs := [.sequencer] } : State).inReset = true
      ∧ (stepped { st with inReset := true, inputs := [.sequencer] }).map State.inputs = some []
      ∧ stepped { st with inReset := true, inputs := [.hostRead 0xFC 4] } = none
      ∧ ({ st with inReset := true } : State).inputs = []
      ∧ (stepped { st with inReset := true, inputs := [.resetRelease] }).map State.inReset = some false := by decide

theorem witness_OpcodesOfTheResults :
    opField 0x12340001 = 0x01 ∧ opField 0x00000102 = 0x02 ∧ opField 0x3 = 0x03 ∧ opField 0x0000F004 = 0x04
      ∧ opField 0x5 = 0x05 ∧ opField 0x0000A506 = 0x06 ∧ opField 0x00001007 = 0x07 ∧ opField 0x0000280A = 0x0A
      ∧ opField 0xABCD0008 = 0x08 ∧ opField 0x9 = 0x09
      ∧ opField 0x07D0000B = 0x0B := by decide

theorem witness_OwBlockTouchResult :
    Memory.wf st = true ∧ (16 : Byte).toNat ≤ st.params.blockMax ∧ (0 : Byte).toNat ≤ st.params.blockMax
      ∧ st.inReset = false ∧ st.busy = false ∧ opField 0x1107 = 0x07 ∧ st.params.blockMax < (imm8Field 0x1107).toNat := by
  decide

theorem witness_TransactorApartFromSearchState :
    isTransactor .owReset = true ∧ (∃ t, exec .owReset st = .next t) ∧ isTransactor (.owBlockTouch 16) = true
      ∧ ∃ t, exec (.owBlockTouch 16) st = .next t := ⟨rfl, ⟨_, rfl⟩, rfl, _, rfl⟩

theorem witness_CommandFrame :
    (Instr.owBlockTouch 16).wf st.params.blockMax = true ∧ Instr.owBlockTouch 16 ≠ .owSearchFirst
      ∧ Instr.owBlockTouch 16 ≠ .owSearchNext ∧ (∃ t, exec (.owBlockTouch 16) st = .next t)
      ∧ writesData (.owWriteByte 0) = false ∧ storedBytes (.owBlockTouch 15) ≤ 15 := by
  refine ⟨by decide, by decide, by decide, ⟨_, rfl⟩, by decide, by decide⟩

theorem witness_SearchFrame : (∃ t, exec .owSearchFirst st = .next t) ∧ ∃ t, exec .owSearchNext st = .next t :=
  ⟨⟨_, rfl⟩, _, rfl⟩

theorem witness_ExhaustedSearchChangesNothing : ({ st with lastDevFlag := true } : State).lastDevFlag = true := by decide

theorem witness_SearchWithoutPresence :
    ({ st with levels := [true] } : State).lastDevFlag = false ∧ ({ st with levels := [true] } : State).nextLevel = true := by
  decide

theorem witness_DoubleOneAbortsThePass :
    ({ st with levels := [false, true, true] } : State).lastDevFlag = false
      ∧ ({ st with levels := [false, true, true] } : State).levels = false :: true :: true :: [] := by decide

/-- Every outcome is reached: V-S2a, V-S11, V-S1, V-S8b, V-S6 and V-S5. -/
theorem witness_SearchOutcomes :
    (after .owSearchFirst { st with levels := passAnswers [devA] devA }).sres = .found
      ∧ (after .owSearchNext { st with lastDevFlag := true }).sres = .exhausted
      ∧ (after .owSearchFirst { st with levels := [true] }).sres = .noPresence
      ∧ (after .owSearchFirst { st with levels := [false, true, true] }).sres = .busError
      ∧ (after .owSearchFirst { st with
          levels := passAnswers [0x9F06050403020128] 0x9F06050403020128 }).sres = .crcError
      ∧ (after .owSearchFirst { st with levels := passAnswers [0] 0 }).sres = .zeroFamily := by decide +kernel

theorem witness_PassEventsAndPartialCrc :
    (after .owSearchFirst { st with levels := passAnswers [devA] devA }).sres = .found
      ∧ (after .owSearchFirst { st with levels := (passAnswers [devA] devA).take 17 ++ [true, true] }).sres = .busError
      ∧ (after .owSearchFirst { st with levels := (passAnswers [devA] devA).take 17 ++ [true, true] }).crc =
        crcFold 0 [0x28] := by decide +kernel

theorem witness_FoundAddressHasItsCrc :
    (after .owSearchFirst { st with levels := passAnswers [devA] devA }).sres = .found
      ∧ (after .owSearchNext { st with levels := passAnswers [devA] devA }).sres = .found := by decide +kernel

theorem witness_LoneDeviceIsFound :
    crcFold 0 (romBytes devA) = 0 ∧ romByte devA 0 ≠ 0
      ∧ ({ st with levels := passAnswers [devA] devA } : State).levels =
        false :: ((List.range 64).flatMap fun k => [devA.getLsbD k, !devA.getLsbD k]) ++ [] := by decide +kernel

theorem witness_StuckLowLineIsZeroFamily :
    ({ st with levels := List.replicate 129 false } : State).levels = List.replicate 129 false ++ [] :=
  (List.append_nil _).symm

theorem witness_LastFamDiscIsNeverRead : ∃ t, exec .owSearchNext st = .next t := ⟨_, rfl⟩

theorem witness_ConstantGIsUnused : (∃ t, exec .owReset st = .next t) ∧ Reg.time .f ≠ .time .g := ⟨⟨_, rfl⟩, by decide⟩

theorem witness_SearchDependsOnSearchStateOnly :
    let s := { st with lastDisc := 49, rom := devA, levels := passAnswers [devA, devB] devB }
    let u := { s with data := 0x55, crc := 0x11, lastFamDisc := 3, presence := true }
    u ≠ s ∧ u.params = s.params ∧ u.lastDisc = s.lastDisc ∧ u.lastDevFlag = s.lastDevFlag ∧ u.rom = s.rom
      ∧ u.levels = s.levels ∧ u.sampleDraws = s.sampleDraws ∧ s.lastDevFlag = false
      ∧ ∃ t, exec .owSearchNext s = .next t := by
  refine ⟨by decide +kernel, rfl, rfl, rfl, rfl, rfl, rfl, rfl, _, rfl⟩

/-- At the boundary: all of the wait's cycles. -/
theorem witness_WaitCountsItsCycles :
    let s : State := { busySt 0x1 with progress := some ⟨[], .nothing⟩, waitLeft := 5 }
    s.busy = true ∧ s.inReset = false ∧ s.progress = some ⟨[], .nothing⟩ ∧ 5 ≤ s.waitLeft
      ∧ (sequencerMoves 5 s).map State.waitLeft = some 0 := by decide

theorem witness_CommandDurations :
    (∃ t, exec (.owWriteByte 0xA5) st = .next t) ∧ (∃ t, exec (.owBlockTouch 16) st = .next t)
      ∧ (∃ t, exec (.owBlockTouch 17) st = .next t) ∧ ∃ t, exec .owSearchNext st = .next t :=
  ⟨⟨_, rfl⟩, ⟨_, rfl⟩, ⟨_, rfl⟩, _, rfl⟩

theorem witness_EventByEventEqualsWhole :
    (busySt 0x00000102).busy = true ∧ (busySt 0x00000102).inReset = false ∧ (busySt 0x00000102).progress = none
      ∧ decode (busySt 0x00000102).params.blockMax (busySt 0x00000102).cur = .ok (.owWriteBit true) := by decide

/-- A state in the middle of a command with the line low. -/
def midCommand : State :=
  { busySt 0x1 with
    progress := some ⟨[.release, .sample .presence], .presence⟩, line := true, inputs := [.sequencer] }

theorem witness_NoFaultUnderInv : Machine.Inv midCommand where
  paramsLegal := by decide
  bufWf := by decide
  curLegal := fun _ => by decide
  idle := fun h => absurd h (by decide)
  lineReleased := fun h => absurd h (by decide)
  lineInCommand := fun p h => by cases h; decide
  lineAtExit := fun h => absurd h (by decide)
  foundIsSres := by decide
  resetIdle := fun h => absurd h (by decide)

theorem witness_StepKeepsInv : Machine.Inv midCommand ∧ ∃ t, step midCommand = .next t :=
  ⟨witness_NoFaultUnderInv, _, rfl⟩

theorem witness_InvAtReset : Config.defaultParams.legal = true := by decide

end Sys2Proof.Tests
end

section
/-! The invariant along a step (O55): what the line is allowed to do between two elements of a command, the programs of
the commands, and each turn of `step_cases`. -/

namespace Sys2Proof.Machine

open Sys2Proof

/-! ## The line between two elements of a command -/

theorem passEnd_line (s : State) : s.passEnd.line = s.line := by
  simp only [State.passEnd]
  split
  · rfl
  split
  · rfl
  split <;> rfl

theorem direction_line (s : State) : s.direction.line = s.line := by
  unfold State.direction
  split
  · exact passEnd_line _
  split
  · rfl
  split <;> rfl

/-- No inner action drives or releases the line. -/
theorem doAct_line (s : State) (a : Act) : (s.doAct a).line = s.line := by
  cases a with
  | clearByte => rfl
  | storeByte k => rfl
  | resetSearch => rfl
  | passBegin => simp only [State.doAct, State.passBegin]; split <;> rfl
  | presenceCheck => simp only [State.doAct, State.presenceCheck]; split <;> rfl
  | loopBegin => rfl
  | direction => exact direction_line s
  | advance => rfl
  | passEnd => exact passEnd_line s

/-- With `ops` still to run, the line is fit to run them and is released if the pass has met its exit. -/
structure LineSafe (s : State) (ops : List Op) : Prop where
  ahead : lineOk s.line ops = true
  atExit : s.temps.stop = true → s.line = false

/-- One element performed leaves the line fit for the rest: only an inner action meets an exit, and it does so with the
line released. -/
theorem LineSafe.doOp {s : State} {op : Op} {rest : List Op} (h : LineSafe s (op :: rest))
    (hgo : s.temps.stop = false) : LineSafe (s.doOp op) rest := by
  have hahead := h.ahead
  cases op with
  | drive => exact ⟨hahead, fun hs => absurd hs (by simp [State.doOp, hgo])⟩
  | release => exact ⟨hahead, fun _ => rfl⟩
  | delay t => exact ⟨hahead, fun hs => absurd hs (by simp [State.doOp, hgo])⟩
  | delayDir a b => exact ⟨hahead, fun hs => absurd hs (by simp [State.doOp, hgo])⟩
  | sample d =>
    simp only [lineOk, Bool.and_eq_true, Bool.not_eq_true'] at hahead
    have hline : (s.doOp (.sample d)).line = s.line := State.sample_line s d
    exact ⟨by rw [hline]; exact hahead.2, fun _ => hline.trans hahead.1⟩
  | act a =>
    simp only [lineOk, Bool.and_eq_true, Bool.not_eq_true'] at hahead
    have hline : (s.doOp (.act a)).line = s.line := doAct_line s a
    exact ⟨by rw [hline]; exact hahead.2, fun _ => hline.trans hahead.1⟩

/-- A command run to its end, or to its exit, leaves the line released. -/
theorem LineSafe.runOps_line {ops : List Op} {s : State} (h : LineSafe s ops) : (runOps ops s).line = false := by
  induction ops generalizing s with
  | nil => simpa [lineOk, runOps] using h.ahead
  | cons op rest ih =>
    cases hstop : s.temps.stop with
    | true => rw [runOps_of_stop _ _ hstop]; exact h.atExit hstop
    | false => rw [runOps_cons _ _ _ hstop]; exact ih (h.doOp hstop)

/-! ## The commands' programs keep the rule of the line -/

theorem lineOk_append {line : Bool} {a b : List Op} (ha : lineOk line a = true) (hb : lineOk false b = true) :
    lineOk line (a ++ b) = true := by
  induction a generalizing line with
  | nil =>
    have hline : line = false := by simpa [lineOk] using ha
    exact hline ▸ hb
  | cons op rest ih =>
    cases op with
    | drive => exact ih ha
    | release => exact ih ha
    | delay t => exact ih ha
    | delayDir one zero => exact ih ha
    | sample d =>
      simp only [List.cons_append, lineOk, Bool.and_eq_true] at ha ⊢
      exact ⟨ha.1, ih ha.2⟩
    | act a =>
      simp only [List.cons_append, lineOk, Bool.and_eq_true] at ha ⊢
      exact ⟨ha.1, ih ha.2⟩

/-- With the line released an inner action puts no condition of its own. -/
theorem lineOk_act (a : Act) (ops : List Op) : lineOk false (.act a :: ops) = lineOk false ops := rfl

theorem lineOk_flatMap {α : Type} {f : α → List Op} (hf : ∀ x, lineOk false (f x) = true) (l : List α) :
    lineOk false (l.flatMap f) = true := by
  induction l with
  | nil => rfl
  | cons x rest ih => exact lineOk_append (hf x) ih

theorem lineOk_writeBitOps (p : Profile) (b : Bool) : lineOk false (writeBitOps p b) = true := by cases b <;> rfl

theorem lineOk_writeByteOps (p : Profile) (v : Byte) : lineOk false (writeByteOps p v) = true :=
  lineOk_flatMap (fun _ => lineOk_writeBitOps p _) _

theorem lineOk_touchBitOps (p : Profile) (v : Byte) (i : Nat) : lineOk false (touchBitOps p v i) = true := by
  unfold touchBitOps
  split <;> rfl

theorem lineOk_touchByteOps (p : Profile) (v : Byte) : lineOk false (touchByteOps p v) = true :=
  lineOk_flatMap (lineOk_touchBitOps p v) _

theorem lineOk_touchBufOps (p : Profile) (k : Nat) (bytes : List Byte) :
    lineOk false (touchBufOps p k bytes) = true := by
  induction bytes generalizing k with
  | nil => rfl
  | cons v rest ih => exact lineOk_append (lineOk_touchByteOps p v) (ih (k + 1))

theorem lineOk_positionsOps (p : Profile) (k : Nat) : lineOk false (positionsOps p k) = true := by
  induction k with
  | zero => rfl
  | succ k ih => exact lineOk_append rfl ih

theorem lineOk_searchPassOps (p : Profile) : lineOk false (searchPassOps p) = true := by
  rw [searchPassOps, lineOk_act]
  refine lineOk_append rfl ?_
  rw [lineOk_act]
  refine lineOk_append (lineOk_writeByteOps p _) ?_
  rw [lineOk_act]
  exact lineOk_append (lineOk_positionsOps p 64) rfl

/-- Every command, begun with the line released, samples only a released line and ends with it released. -/
theorem lineOk_programOf (i : Instr) (s : State) : lineOk false (programOf i s).ops = true := by
  cases i with
  | owReset => rfl
  | owWriteBit bit => exact lineOk_writeBitOps _ bit
  | owReadBit => rfl
  | owWriteByte byte => exact lineOk_writeByteOps _ byte
  | owReadByte =>
    simp only [programOf, owReadByteProgram, readByteOps_touch]
    exact lineOk_touchByteOps _ 0xFF
  | owTouchByte byte => exact lineOk_touchByteOps _ byte
  | owBlockTouch len => exact lineOk_touchBufOps _ 0 _
  | owSearchFirst => exact (lineOk_act _ _).trans (lineOk_searchPassOps _)
  | owSearchNext => exact lineOk_searchPassOps _
  | crc8Update byte => rfl
  | delay ticks => rfl

/-- What decodes is well formed: an over-long block touch does not (30_encoding.md R84). -/
theorem wf_of_decode {blockMax : Nat} {w : Word} {i : Instr} (h : decode blockMax w = .ok i) :
    i.wf blockMax = true := by
  unfold decode at h
  split at h
  case h_7 =>
    split at h
    next hlen => cases h; simpa [Instr.wf] using hlen
    · cases h
  all_goals cases h <;> rfl

/-! ## The invariant under changes of the state -/

/-- What the invariant speaks of is alike in two states, but that reset may have been released. A field that the change
of state does not name is alike by definition, so `{}` says it. -/
structure SameForInv (s t : State) : Prop where
  params : t.params = s.params := by rfl
  busy : t.busy = s.busy := by rfl
  found : t.found = s.found := by rfl
  sres : t.sres = s.sres := by rfl
  cur : t.cur = s.cur := by rfl
  progress : t.progress = s.progress := by rfl
  waitLeft : t.waitLeft = s.waitLeft := by rfl
  gap : t.gap = s.gap := by rfl
  temps : t.temps = s.temps := by rfl
  line : t.line = s.line := by rfl
  bufLength : t.buf.length = s.buf.length := by rfl
  inReset : t.inReset = true → s.inReset = true := by exact id

theorem Inv.of_same {s t : State} (h : Inv s) (k : SameForInv s t) : Inv t where
  paramsLegal := by simpa [k.params] using h.paramsLegal
  bufWf := wf_of_same k.bufLength k.params h.bufWf
  curLegal := by simpa [k.busy, k.params, k.cur] using h.curLegal
  idle := by simpa [k.busy, k.progress, k.waitLeft, k.gap, k.temps] using h.idle
  lineReleased := by simpa [k.progress, k.line] using h.lineReleased
  lineInCommand := by simpa [k.progress, k.line] using h.lineInCommand
  lineAtExit := by simpa [k.temps, k.line] using h.lineAtExit
  foundIsSres := by simpa [k.found, k.sres] using h.foundIsSres
  resetIdle := fun hr => k.busy.trans (h.resetIdle (k.inReset hr))

theorem Inv.withInputs {s : State} (h : Inv s) (rest : List Input) : Inv { s with inputs := rest } :=
  h.of_same {}

theorem Inv.releaseReset {s : State} (h : Inv s) : Inv { s with inReset := false } :=
  h.of_same { inReset := fun hr => by cases hr }

theorem Inv.hostReadReg {s : State} (h : Inv s) (r : Reg) : Inv (s.hostReadReg r) := by
  obtain ⟨v, d, hread⟩ := hostReadReg_changes s r
  exact hread ▸ h.of_same {}

/-- Acceptance begins a command with the line released, as it is when idle. -/
theorem Inv.accept {s : State} (h : Inv s) {w : Word} (hidle : s.busy = false) (hreset : s.inReset = false)
    (hw : legal s.params.blockMax w = true) : Inv (s.accept w) where
  paramsLegal := h.paramsLegal
  bufWf := h.bufWf
  curLegal := fun _ => hw
  idle := fun hb => by cases hb
  lineReleased := fun _ => h.lineReleased (h.idle hidle).1
  lineInCommand := fun _ hp => by cases hp
  lineAtExit := fun hs => by cases hs
  foundIsSres := h.foundIsSres
  resetIdle := fun hr => absurd hr (by simp [hreset])

theorem Inv.hostWriteReg {s : State} (h : Inv s) (hreset : s.inReset = false) (r : Reg) (v : Word) :
    Inv (s.hostWriteReg r v) := by
  cases hbusy : s.busy with
  | true =>
    rw [hostWriteReg_busy s r v hbusy]
    exact h.of_same {}
  | false =>
    rcases hostWriteReg_idle s r v hbusy with ⟨-, hw, haccept⟩ | hkept
    · rw [haccept]
      exact h.accept hbusy hreset hw
    · obtain ⟨hparams, hb, -, hfound, hsres, hcur, hprogress, hwait, hgap, htemps, hline, hr, hbuf⟩ := hkept
      exact h.of_same ⟨hparams, hb.trans hbusy.symm, hfound, hsres, hcur, hprogress, hwait, hgap, htemps, hline, hbuf,
        hr ▸ id⟩

theorem Inv.blockReset {s : State} (h : Inv s) : Inv s.blockReset where
  paramsLegal := h.paramsLegal
  bufWf := wf_blockReset s
  curLegal := fun hb => by cases hb
  idle := fun _ => ⟨rfl, rfl, rfl, rfl⟩
  lineReleased := fun _ => rfl
  lineInCommand := fun _ hp => by cases hp
  lineAtExit := fun _ => rfl
  foundIsSres := rfl
  resetIdle := fun _ => rfl

/-! ## The invariant along a command -/

/-- The sequencer goes on with `q`, the line being fit for it. -/
theorem Inv.goesOn {s t : State} {q : Program} (h : Inv s) (hbusy : s.busy = true)
    (hsame : SameOutside s { t with progress := s.progress }) (hq : t.progress = some q) (hline : LineSafe t q.ops) :
    Inv t := by
  have hparams : t.params = s.params := hsame.params
  have hb : t.busy = true := hsame.busy.trans hbusy
  have hcur : t.cur = s.cur := hsame.cur
  exact {
    paramsLegal := hparams ▸ h.paramsLegal
    bufWf := wf_of_same hsame.bufLength hparams h.bufWf
    curLegal := fun _ => by rw [hparams, hcur]; exact h.curLegal hbusy
    idle := fun hi => absurd hi (by simp [hb])
    lineReleased := fun hn => absurd hn (by simp [hq])
    lineInCommand := fun p hp => by cases hq.symm.trans hp; exact hline.ahead
    lineAtExit := hline.atExit
    foundIsSres := by
      have hfound : t.found = s.found := hsame.found
      have hsres : t.sres = s.sres := hsame.sres
      rw [hfound, hsres]
      exact h.foundIsSres
    resetIdle := fun hr => absurd (h.resetIdle (hsame.inReset ▸ hr)) (by simp [hbusy]) }

/-- A completion keeps FOUND as `SRES = 1` (10_state.md R22, 42_search.md R172). -/
theorem complete_foundIsSres {s : State} (c : Completion) (h : s.found = decide (s.sres = .found)) :
    (s.complete c).found = decide ((s.complete c).sres = .found) := by
  cases c with
  | search => rfl
  | _ => exact h

/-- A completion with the line released ends in the invariant, whatever elements were performed before it. -/
theorem Inv.complete {s u : State} (h : Inv s) (hsame : SameOutside s u) (hline : u.line = false) (c : Completion) :
    Inv (u.complete c) := by
  have hc := complete_same u c
  obtain ⟨hbusy, hprogress, hwait, hgap, htemps⟩ := complete_idle u c
  exact {
    paramsLegal := by rw [hc.params, hsame.params]; exact h.paramsLegal
    bufWf := wf_complete c (wf_of_same hsame.bufLength hsame.params h.bufWf)
    curLegal := fun hb => absurd hb (by simp [hbusy])
    idle := fun _ => ⟨hprogress, hwait, hgap, htemps⟩
    lineReleased := fun _ => hc.line.trans hline
    lineInCommand := fun p hp => absurd hp (by simp [hprogress])
    lineAtExit := fun _ => hc.line.trans hline
    foundIsSres := complete_foundIsSres c (by rw [hsame.found, hsame.sres]; exact h.foundIsSres)
    resetIdle := fun _ => hbusy }

theorem Inv.finish {s : State} {p : Program} (h : Inv s) (hline : LineSafe s p.ops) : Inv (s.finish p) :=
  h.complete (runOps_same p.ops s) hline.runOps_line p.result

theorem Inv.lineSafe {s : State} {p : Program} (h : Inv s) (hp : s.progress = some p) : LineSafe s p.ops :=
  ⟨h.lineInCommand p hp, h.lineAtExit⟩

/-- A command just accepted may begin. -/
theorem Inv.lineSafe_programOf {s : State} (h : Inv s) (hfresh : s.progress = none) (i : Instr) (x : State) :
    LineSafe { s with temps := Temps.fresh } (programOf i x).ops where
  ahead := h.lineReleased hfresh ▸ lineOk_programOf i x
  atExit := fun hs => by cases hs

/-- The sequencer takes up the command just accepted. -/
theorem Inv.takeUp {s : State} (h : Inv s) (hbusy : s.busy = true) (hfresh : s.progress = none) (i : Instr) :
    Inv { s with progress := some (programOf i s), temps := Temps.fresh } :=
  have hline := h.lineSafe_programOf hfresh i s
  h.goesOn hbusy (by constructor <;> rfl) rfl ⟨hline.ahead, hline.atExit⟩

/-- One move along a command: a cycle of a wait or a gap, the completion at an exit or at the end, or an element. -/
theorem Inv.advanceProgram {s : State} {p : Program} (h : Inv s) (hbusy : s.busy = true)
    (hp : s.progress = some p) : Inv (s.advanceProgram p) := by
  have hline := h.lineSafe hp
  unfold State.advanceProgram
  split
  · exact h.goesOn hbusy (by constructor <;> rfl) hp ⟨hline.ahead, hline.atExit⟩
  split
  · exact h.goesOn hbusy (by constructor <;> rfl) hp ⟨hline.ahead, hline.atExit⟩
  split
  case isTrue hstop => exact h.complete (SameOutside.rfl s) (hline.atExit hstop) p.result
  case isFalse hgo =>
    split
    next hops =>
      have hreleased : s.line = false := by simpa [hops, lineOk] using hline.ahead
      exact h.complete (SameOutside.rfl s) hreleased p.result
    next op rest hops =>
      have hnext : LineSafe (s.doOp op) rest := (hops ▸ hline).doOp (by simpa using hgo)
      exact h.goesOn hbusy { doOp_same s op with progress := rfl } rfl ⟨hnext.ahead, hnext.atExit⟩

/-- A command just accepted, run whole. -/
theorem Inv.exec {s t : State} {i : Instr} (h : Inv s) (hfresh : s.progress = none)
    (hi : i.wf s.params.blockMax = true) (ht : exec i s = .next t) : Inv t := by
  rw [exec_wf hi] at ht
  cases ht
  have hsame : SameOutside s { s with temps := Temps.fresh } := by constructor <;> rfl
  exact h.complete (hsame.trans (runOps_same _ _)) (h.lineSafe_programOf hfresh i s).runOps_line _

/-- Settles O55: each turn of `step_cases` keeps the invariant. -/
theorem stepKeepsInv : Obligations.StepKeepsInv := by
  intro s t h hstep
  cases step_cases hstep with
  | hostRead off rest _ _ _ _ res => rw [res]; exact (h.withInputs rest).hostReadReg _
  | hostWrite off v rest _ hreset _ _ res => rw [res]; exact (h.withInputs rest).hostWriteReg hreset _ v
  | resetAssert rest _ res => rw [res]; exact (h.withInputs rest).blockReset
  | resetRelease rest _ res => rw [res]; exact (h.withInputs rest).releaseReset
  | nothing rest _ _ res => rw [res]; exact h.withInputs rest
  | takeUp rest i _ _ hbusy hfresh _ res => rw [res]; exact (h.withInputs rest).takeUp hbusy hfresh i
  | move rest p _ _ hbusy hp res => rw [res]; exact (h.withInputs rest).advanceProgram hbusy hp
  | whole rest i _ _ _ hfresh hcommand res => exact (h.withInputs rest).exec hfresh (wf_of_decode hcommand) res
  | remainder rest p _ _ _ hp res => rw [res]; exact (h.withInputs rest).finish ((h.withInputs rest).lineSafe hp)

end Sys2Proof.Machine
end

section
/-! STATUS and the steps (O7, O9, O10, O11, O19): the bits of the status word, what a step that ends BUSY can be, and that
every step keeps the parameters. -/

namespace Sys2Proof.Machine

open Sys2Proof

/-! ## The command in CUR -/

/-- With a command accepted and not begun, running to the completion is the command's meaning. -/
theorem runToCompletion_accepted {s : State} {i : Instr} (hreset : s.inReset = false) (hbusy : s.busy = true)
    (hfresh : s.progress = none) (hcommand : decode s.params.blockMax s.cur = .ok i) :
    s.runToCompletion = exec i s := by
  simp [State.runToCompletion, State.command, hreset, hbusy, hfresh, hcommand]

theorem step_of_no_inputs {s : State} (h : s.inputs = []) : step s = s.runToCompletion := by
  simp [step, State.takeTurn, h]

theorem step_of_run {s : State} {rest : List Input} (h : s.inputs = .run :: rest) :
    step s = ({ s with inputs := rest } : State).runToCompletion := by
  simp [step, State.takeTurn, h]

/-- Settles O7: the turn is a run to the completion, and a command not begun runs by its meaning. -/
theorem stepRunsTheAcceptedCommand : Obligations.StepRunsTheAcceptedCommand := by
  intro s i hreset hbusy hfresh hcommand
  constructor
  · intro hinputs
    rw [step_of_no_inputs hinputs, runToCompletion_accepted hreset hbusy hfresh hcommand]
  · intro rest hinputs
    rw [step_of_run hinputs]
    exact runToCompletion_accepted hreset hbusy hfresh hcommand

/-! ## The status word -/

/-- A flag's word has its one bit. -/
theorem getLsbD_flagAt (i j : Nat) (b : Bool) (hj : j < 32) : (flagAt i b).getLsbD j = (b && decide (j = i)) := by
  cases b with
  | false => simp [flagAt]
  | true =>
    simp only [flagAt, if_true, BitVec.getLsbD_shiftLeft, BitVec.getLsbD_one, Bool.true_and]
    grind

/-- Every bit of the status word: the five flags at their places and the code of SRES from bit 4 on. -/
theorem getLsbD_statusWord (s : State) (j : Nat) (hj : j < 32) :
    s.statusWord.getLsbD j =
      ((s.busy && decide (j = 0)) || (s.presence && decide (j = 1)) || (s.found && decide (j = 2))
        || (decide (4 ≤ j) && s.sres.code.getLsbD (j - 4))
        || (s.ovr && decide (j = 8)) || (s.ill && decide (j = 9))) := by
  have hcode : (s.sres.code.setWidth 32 <<< 4).getLsbD j = (decide (4 ≤ j) && s.sres.code.getLsbD (j - 4)) := by
    by_cases h4 : 4 ≤ j
    · simp [h4, hj]
    · simp [h4, show j < 4 by omega]
  simp only [State.statusWord, BitVec.getLsbD_or, getLsbD_flagAt _ _ _ hj, hcode]

/-- Settles O19: each field is read off the bits of the status word. -/
theorem statusWordFields : Obligations.StatusWordFields := by
  intro s
  have hsres : s.statusWord.extractLsb' 4 3 = s.sres.code := by
    apply BitVec.eq_of_getLsbD_eq
    intro k hk
    rw [BitVec.getLsbD_extractLsb', getLsbD_statusWord s (4 + k) (by omega)]
    grind
  have hreserved : s.statusWord.extractLsb' 10 22 = 0 := by
    apply BitVec.eq_of_getLsbD_eq
    intro k hk
    have hpast : s.sres.code.getLsbD (10 + k - 4) = false := BitVec.getLsbD_of_ge _ _ (by omega)
    rw [BitVec.getLsbD_extractLsb', getLsbD_statusWord s (10 + k) (by omega)]
    grind
  refine ⟨?_, ?_, ?_, ?_, hsres, ?_, ?_, ?_, hreserved⟩
  all_goals
    rw [getLsbD_statusWord s _ (by decide)]
    simp

/-! ## Parameters -/

theorem hostWriteReg_params (s : State) (r : Reg) (v : Word) : (s.hostWriteReg r v).params = s.params := by
  cases hbusy : s.busy with
  | true => rw [hostWriteReg_busy s r v hbusy]
  | false =>
    rcases hostWriteReg_idle s r v hbusy with ⟨-, -, haccept⟩ | ⟨hparams, -⟩
    · rw [haccept]; rfl
    · exact hparams

theorem hostReadReg_params (s : State) (r : Reg) : (s.hostReadReg r).params = s.params := by
  obtain ⟨v, d, hread⟩ := hostReadReg_changes s r
  rw [hread]

theorem finish_params (s : State) (p : Program) : (s.finish p).params = s.params := (finish_frame s p).1

theorem advanceProgram_params (s : State) (p : Program) : (s.advanceProgram p).params = s.params := by
  rcases advanceProgram_cases s p with hcomplete | ⟨-, -, -, -, hparams, -⟩
  · rw [hcomplete]; exact (complete_same s p.result).params
  · exact hparams

theorem exec_params {i : Instr} {s t : State} (h : exec i s = .next t) : t.params = s.params := by
  rcases exec_answers i s with ha | ⟨len, -, -, ha⟩ <;> rw [ha] at h <;> cases h
  · exact finish_params _ _
  · rfl

/-- Settles O11: no turn of `step_cases` writes the parameters. -/
theorem parametersNeverChange : Obligations.ParametersNeverChange := by
  intro s t hstep
  cases step_cases hstep with
  | hostRead off rest _ _ _ _ res => rw [res]; exact hostReadReg_params _ _
  | hostWrite off v rest _ _ _ _ res => rw [res]; exact hostWriteReg_params _ _ _
  | resetAssert rest _ res => rw [res]; rfl
  | resetRelease rest _ res => rw [res]
  | nothing rest _ _ res => rw [res]
  | takeUp rest i _ _ _ _ _ res => rw [res]
  | move rest p _ _ _ _ res => rw [res]; exact advanceProgram_params _ _
  | whole rest i _ _ _ _ _ res => exact exec_params (s := { s with inputs := rest }) res
  | remainder rest p _ _ _ _ res => rw [res]; exact finish_params _ _

/-! ## Steps that end BUSY -/

/-- A command's meaning ends with BUSY 0. -/
theorem exec_busy {i : Instr} {s t : State} (h : exec i s = .next t) : t.busy = false := by
  rcases exec_answers i s with ha | ⟨len, -, -, ha⟩ <;> rw [ha] at h <;> cases h
  · exact (complete_idle _ _).1
  · rfl

/-- BUSY, and the fields of STATUS that only a completion or a reset writes, are alike in two states. A field that the
change of state does not name is alike by definition, so `{}` says it. -/
structure StatusKept (s t : State) : Prop where
  busy : t.busy = s.busy := by rfl
  presence : t.presence = s.presence := by rfl
  found : t.found = s.found := by rfl
  sres : t.sres = s.sres := by rfl

theorem hostReadReg_statusKept (s : State) (r : Reg) : StatusKept s (s.hostReadReg r) := by
  obtain ⟨v, d, hread⟩ := hostReadReg_changes s r
  rw [hread]
  exact {}

/-- A host write is the acceptance of a command, or keeps these fields. -/
theorem hostWriteReg_accepts_or_statusKept (s : State) (r : Reg) (v : Word) :
    StatusKept s (s.hostWriteReg r v)
    ∨ r = .cmd ∧ legal s.params.blockMax v = true ∧ s.hostWriteReg r v = s.accept v := by
  cases hbusy : s.busy with
  | true =>
    rw [hostWriteReg_busy s r v hbusy]
    exact .inl {}
  | false =>
    rcases hostWriteReg_idle s r v hbusy with haccept | ⟨-, hb, hpresence, hfound, hsres, -⟩
    · exact .inr haccept
    · exact .inl ⟨hb.trans hbusy.symm, hpresence, hfound, hsres⟩

/-- A step that ends BUSY keeps BUSY and the status of the last completion, or is the host's write of a legal word to CMD
(10_state.md R20, R22). -/
theorem step_statusKept_or_accepts {s t : State} (hstep : step s = .next t) (hends : t.busy = true) :
    StatusKept s t
    ∨ ∃ w rest, s.inputs = .hostWrite (s.params.owBase + 0x00) 4 w :: rest ∧ legal s.params.blockMax w = true
      ∧ t = ({ s with inputs := rest } : State).accept w := by
  cases step_cases hstep with
  | hostRead off rest _ _ _ _ res =>
    rw [res]
    exact .inl { hostReadReg_statusKept { s with inputs := rest } _ with }
  | hostWrite off v rest hinputs _ _ _ res =>
    rcases hostWriteReg_accepts_or_statusKept { s with inputs := rest } (regAt s.params.blockMax off) v with
      hkept | ⟨hcmd, hlegal, haccept⟩
    · exact .inl (res ▸ { hkept with })
    · exact .inr ⟨v, rest, regAt_cmd hcmd ▸ hinputs, hlegal, res.trans haccept⟩
  | resetAssert rest _ res => rw [res] at hends; cases hends
  | resetRelease rest _ res => rw [res]; exact .inl {}
  | nothing rest _ _ res => rw [res]; exact .inl {}
  | takeUp rest i _ _ _ _ _ res => rw [res]; exact .inl {}
  | move rest p _ _ _ _ res =>
    rcases advanceProgram_cases { s with inputs := rest } p with hcomplete | ⟨hb, hpresence, hfound, hsres, -⟩
    · rw [res, hcomplete, (complete_idle _ _).1] at hends
      cases hends
    · exact .inl (res ▸ ⟨hb, hpresence, hfound, hsres⟩)
  | whole rest i _ _ _ _ _ res => rw [exec_busy res] at hends; cases hends
  | remainder rest p _ _ _ _ res =>
    rw [res, State.finish, (complete_idle _ _).1] at hends
    cases hends

/-- Settles O9: from an idle state BUSY is not kept, so the step is an acceptance. -/
theorem onlyCmdWriteStartsACommand : Obligations.OnlyCmdWriteStartsACommand := by
  intro s t hstep hidle hends
  rcases step_statusKept_or_accepts hstep hends with hkept | ⟨w, rest, hinputs, hlegal, haccept⟩
  · exact absurd (hkept.busy.symm.trans hends) (by simp [hidle])
  · exact ⟨w, rest, hinputs, hlegal, by simp [haccept], by simp [haccept]⟩

/-- Settles O10: an acceptance writes none of the three. -/
theorem statusHeldWhileBusy : Obligations.StatusHeldWhileBusy := by
  intro s t hstep hends
  rcases step_statusKept_or_accepts hstep hends with hkept | ⟨w, rest, -, -, haccept⟩
  · exact ⟨hkept.presence, hkept.found, hkept.sres⟩
  · simp [haccept]

end Sys2Proof.Machine
end

section
/-! The sequencer's moves and the command run whole (O54): the moves of a command in progress end where the run of what is
left of it does. -/

namespace Sys2Proof.Machine

open Sys2Proof

/-! ## What a command ends in does not depend on the progress held -/

theorem answered_progress (s : State) (q : Option Program) :
    ({ s with progress := q } : State).answered = { s.answered with progress := q } := by
  simp only [State.answered, State.dropLevel]
  split
  · rfl
  · cases s.levels <;> rfl

theorem sample_progress (s : State) (q : Option Program) (d : Dest) :
    ({ s with progress := q } : State).sample d = { s.sample d with progress := q } := by
  simp only [State.sample, answered_progress]
  cases d <;> rfl

theorem passEnd_progress (s : State) (q : Option Program) :
    ({ s with progress := q } : State).passEnd = { s.passEnd with progress := q } := by
  simp only [State.passEnd]
  split
  · rfl
  split
  · rfl
  split <;> rfl

theorem direction_progress (s : State) (q : Option Program) :
    ({ s with progress := q } : State).direction = { s.direction with progress := q } := by
  have hbranch : ({ s with progress := q } : State).branch = s.branch := rfl
  simp only [State.direction, hbranch]
  split
  · exact passEnd_progress { s with temps := { s.temps with ok := false } } q
  split
  · rfl
  split <;> rfl

theorem doOp_progress (s : State) (q : Option Program) (op : Op) :
    ({ s with progress := q } : State).doOp op = { s.doOp op with progress := q } := by
  cases op with
  | drive => rfl
  | release => rfl
  | delay t => rfl
  | delayDir one zero => rfl
  | sample d => exact sample_progress s q d
  | act a =>
    cases a with
    | clearByte => rfl
    | storeByte k => rfl
    | resetSearch => rfl
    | passBegin => simp only [State.doOp, State.doAct, State.passBegin]; split <;> rfl
    | presenceCheck => simp only [State.doOp, State.doAct, State.presenceCheck]; split <;> rfl
    | loopBegin => rfl
    | direction => exact direction_progress s q
    | advance => rfl
    | passEnd => exact passEnd_progress s q

theorem complete_progress (s : State) (q : Option Program) (c : Completion) :
    ({ s with progress := q } : State).complete c = s.complete c := by
  cases c with
  | search => simp only [State.complete, State.writeSearchResult]; split <;> rfl
  | _ => rfl

theorem finish_progress (s : State) (q : Option Program) (p : Program) :
    ({ s with progress := q } : State).finish p = s.finish p := by
  have hrun := runOps_commute (fun x => { x with progress := q }) p.ops (fun _ => rfl)
    (fun op _ x => doOp_progress x q op) s
  simp only [State.finish, hrun, complete_progress]

/-! ## What is left of a command, by its first element -/

theorem finish_of_stop {s : State} (p : Program) (h : s.temps.stop = true) : s.finish p = s.complete p.result := by
  rw [State.finish, runOps_of_stop _ _ h]

theorem finish_of_done {s : State} {p : Program} (h : p.ops = []) : s.finish p = s.complete p.result := by
  rw [State.finish, h, runOps]

theorem finish_of_element {s : State} {p : Program} {op : Op} {rest : List Op} (hgo : s.temps.stop = false)
    (h : p.ops = op :: rest) : s.finish p = (s.doOp op).finish { p with ops := rest } := by
  rw [State.finish, h, runOps_cons _ _ _ hgo, State.finish]

/-! ## Sequences of moves -/

/-- Some number of the sequencer's moves leads from `s` to `t`. -/
def State.MovesTo (s t : State) : Prop := ∃ k, sequencerMoves k s = some t

theorem State.MovesTo.rfl (s : State) : s.MovesTo s := ⟨0, Eq.refl _⟩

theorem State.MovesTo.head {s t u : State} (hmove : s.sequencerMove = .next t) (h : t.MovesTo u) : s.MovesTo u := by
  obtain ⟨k, hk⟩ := h
  exact ⟨k + 1, by simp [sequencerMoves, hmove, hk]⟩

/-- A command in progress moves along its program. -/
theorem sequencerMove_begun {s : State} {p : Program} (hbusy : s.busy = true) (hreset : s.inReset = false)
    (hp : s.progress = some p) : s.sequencerMove = .next (s.advanceProgram p) := by
  simp [State.sequencerMove, hbusy, hreset, hp]

/-- A command just accepted is taken up. -/
theorem sequencerMove_accepted {s : State} {i : Instr} (hbusy : s.busy = true) (hreset : s.inReset = false)
    (hfresh : s.progress = none) (hcommand : decode s.params.blockMax s.cur = .ok i) :
    s.sequencerMove = .next { s with progress := some (programOf i s), temps := Temps.fresh } := by
  simp [State.sequencerMove, State.command, hbusy, hreset, hfresh, hcommand]

/-- The moves of a command in progress end where the run of what is left of it does: a cycle of a wait or a gap does not
change what it ends in, and an element performed leaves the run of the elements after it. -/
theorem movesTo_finish (s : State) (p : Program) (hbusy : s.busy = true) (hreset : s.inReset = false)
    (hp : s.progress = some p) : s.MovesTo (s.finish p) := by
  have hmove := sequencerMove_begun hbusy hreset hp
  unfold State.advanceProgram at hmove
  split at hmove
  case isTrue hwait =>
    rw [← finish_counters s p (s.waitLeft - 1) s.gap]
    exact .head hmove (movesTo_finish _ p hbusy hreset hp)
  split at hmove
  case isTrue hgap =>
    rw [← finish_counters s p s.waitLeft (s.gap - 1)]
    exact .head hmove (movesTo_finish _ p hbusy hreset hp)
  split at hmove
  case isTrue hstop =>
    rw [finish_of_stop p hstop]
    exact .head hmove (.rfl _)
  case isFalse hgo =>
    split at hmove
    next hops =>
      rw [finish_of_done hops]
      exact .head hmove (.rfl _)
    next op rest hops =>
      have hsame := doOp_same s op
      have hshorter : rest.length < p.ops.length := by simp [hops]
      rw [finish_of_element (by simpa using hgo) hops, ← finish_progress _ (some { p with ops := rest })]
      exact .head hmove (movesTo_finish _ _ (hsame.busy.trans hbusy) (hsame.inReset.trans hreset) rfl)
termination_by (p.ops.length, s.waitLeft, s.gap)

/-- Settles O54: the first move takes the command up, and the moves after it run its program. -/
theorem eventByEventEqualsWhole : Obligations.EventByEventEqualsWhole := by
  intro s i hbusy hreset hfresh hcommand
  have hwhole := exec_wf (s := s) (wf_of_decode hcommand)
  have hmoves := movesTo_finish { s with progress := some (programOf i s), temps := Temps.fresh } (programOf i s)
    hbusy hreset rfl
  rw [finish_progress { s with temps := Temps.fresh }] at hmoves
  obtain ⟨k, hk⟩ := hmoves.head (sequencerMove_accepted hbusy hreset hfresh hcommand)
  exact ⟨k, _, hk, hwhole⟩

end Sys2Proof.Machine
end

section
/-! The host's window (O16, O17, O18, O20, O21, O58): the turn of a host access, the register at an offset, the
packing of BUF, SRCH and ROM in words, and what each register reads and takes while idle (20_memory.md R52 to R58). -/

namespace Sys2Proof.Machine

open Sys2Proof

/-! ## The turn of a host access -/

theorem step_of_hostRead {s : State} {addr bytes : Nat} {rest : List Input}
    (h : s.inputs = .hostRead addr bytes :: rest) :
    step s = ({ s with inputs := rest } : State).hostRead addr bytes := by
  simp [step, State.takeTurn, h]

theorem step_of_hostWrite {s : State} {addr bytes : Nat} {v : Word} {rest : List Input}
    (h : s.inputs = .hostWrite addr bytes v :: rest) :
    step s = ({ s with inputs := rest } : State).hostWrite addr bytes v := by
  simp [step, State.takeTurn, h]

/-- An access of another shape, in the window and out of reset, has no offset. -/
theorem offsetOf_undefined (s : State) (off bytes : Nat) (hreset : s.inReset = false) (hlt : off < 256)
    (hshape : bytes ≠ 4 ∨ off % 4 ≠ 0) : s.offsetOf (s.params.owBase + off) bytes = .error .undefinedAccess := by
  have hwindow : ¬(s.params.owBase + off < s.params.owBase ∨ s.params.owBase + 256 ≤ s.params.owBase + off) := by
    omega
  rw [State.offsetOf, if_neg hwindow, if_neg (by simp [hreset]), Nat.add_sub_cancel_left, if_pos hshape]

/-- Settles O21: the access has no offset, so its turn is refused. -/
theorem undefinedAccessIsRefused : Obligations.UndefinedAccessIsRefused := by
  intro s off bytes v rest hreset hlt hshape
  have hoff := offsetOf_undefined { s with inputs := rest } off bytes hreset hlt hshape
  constructor
  · intro hinputs
    rw [step_of_hostRead hinputs, State.hostRead, hoff]
  · intro hinputs
    rw [step_of_hostWrite hinputs, State.hostWrite, hoff]

section Window
variable {s : State} {off : Nat} {rest : List Input}

/-- A well-formed read in the window is the read of the offset's register. -/
theorem step_hostRead_window (hreset : s.inReset = false) (hlt : off < 256) (h4 : off % 4 = 0)
    (hinputs : s.inputs = .hostRead (s.params.owBase + off) 4 :: rest) :
    step s = .next (({ s with inputs := rest } : State).hostReadReg (regAt s.params.blockMax off)) := by
  rw [step_of_hostRead hinputs, State.hostRead, offsetOf_window { s with inputs := rest } off hreset hlt h4]

/-- A well-formed write in the window is the write of the offset's register. -/
theorem step_hostWrite_window {v : Word} (hreset : s.inReset = false) (hlt : off < 256) (h4 : off % 4 = 0)
    (hinputs : s.inputs = .hostWrite (s.params.owBase + off) 4 v :: rest) :
    step s = .next (({ s with inputs := rest } : State).hostWriteReg (regAt s.params.blockMax off) v) := by
  rw [step_of_hostWrite hinputs, State.hostWrite, offsetOf_window { s with inputs := rest } off hreset hlt h4]

end Window

/-- A read while idle gives the register's value. -/
theorem hostReadReg_of_idle {s : State} (r : Reg) (hidle : s.busy = false) :
    s.hostReadReg r = { s with replies := s.readReg r :: s.replies } := by
  simp [State.hostReadReg, hidle]

/-- A write while idle is the register's own write. -/
theorem hostWriteReg_of_idle {s : State} (r : Reg) (v : Word) (hidle : s.busy = false) :
    s.hostWriteReg r v = s.writeRegIdle r v := by
  simp [State.hostWriteReg, hidle]

/-- Settles O16: no register is a free draw while idle. -/
theorem readWhileIdle : Obligations.ReadWhileIdle := by
  intro s off rest hreset hidle hlt h4 hinputs
  rw [step_hostRead_window hreset hlt h4 hinputs, hostReadReg_of_idle (s := { s with inputs := rest }) _ hidle]
  rfl

/-- Settles O58: the turn of a well-formed write in the window. -/
theorem writeWhileIdle : Obligations.WriteWhileIdle := by
  intro s off v rest hreset _ hlt h4 hinputs
  exact step_hostWrite_window hreset hlt h4 hinputs

/-! ## The reserved offsets and the words of BUF -/

/-- The reserved offsets of R54, those past the end of BUF among them. -/
theorem regAt_reserved {blockMax off : Nat} (h4 : off % 4 = 0)
    (hoff : (0x44 < off ∧ off < 0x80) ∨ (0x80 ≤ off ∧ blockMax ≤ off - 0x80)) :
    regAt blockMax off = .reserved := by
  rcases hoff with ⟨hlo, hhi⟩ | ⟨h80, hpast⟩
  · exact regAt_middle hlo hhi
  · rw [regAt_high h80 h4, if_neg (by omega)]

/-- BUFk stands at offset 0x80 + 4k. -/
theorem regAt_buf {blockMax k : Nat} (hk : k < blockMax / 4) : regAt blockMax (0x80 + 4 * k) = .buf k := by
  have hindex : (0x80 + 4 * k - 0x80) / 4 = k := by omega
  rw [regAt_high (by omega) (by omega), hindex, if_pos hk]

/-- A read of a reserved offset returns 0, BUSY or not. -/
theorem hostReadReg_reserved (s : State) : s.hostReadReg .reserved = { s with replies := 0 :: s.replies } := by
  simp [State.hostReadReg, Reg.freeWhileBusy, State.readReg]

/-- A write of a reserved offset does nothing, BUSY or not. -/
theorem hostWriteReg_reserved (s : State) (v : Word) : s.hostWriteReg .reserved v = s := by
  simp [State.hostWriteReg, State.writeRegBusy, State.writeRegIdle]

/-- Settles O18: the offset's register is the reserved one, and its accesses do nothing. -/
theorem reservedOffsetsAreInert : Obligations.ReservedOffsetsAreInert := by
  intro s off rest hreset hlt h4 hoff
  have hreg := regAt_reserved h4 hoff
  constructor
  · intro hinputs
    rw [step_hostRead_window hreset hlt h4 hinputs, hreg, hostReadReg_reserved]
  · intro v hinputs
    rw [step_hostWrite_window hreset hlt h4 hinputs, hreg, hostWriteReg_reserved]

/-! ## Little-endian packing -/

theorem or_reverse (a b c d : Word) : a ||| b ||| c ||| d = d ||| c ||| b ||| a := by
  ac_rfl

/-- Packed bytes are the bytes one after the other, the first lowest. -/
theorem packBytes_eq_append (b0 b1 b2 b3 : Byte) : packBytes b0 b1 b2 b3 = b3 ++ b2 ++ b1 ++ b0 := by
  have happend := BitVec.setWidth_append_append_append_eq_shiftLeft_setWidth_or
    (b := b3) (b' := b2) (b'' := b1) (b''' := b0) (w'''' := 32)
  calc packBytes b0 b1 b2 b3
      = b3.setWidth 32 <<< 24 ||| b2.setWidth 32 <<< 16 ||| b1.setWidth 32 <<< 8 ||| b0.setWidth 32 :=
        or_reverse _ _ _ _
    _ = b3 ++ b2 ++ b1 ++ b0 := happend.symm.trans (BitVec.setWidth_eq _)

/-- Byte `j` of four packed bytes. -/
theorem extractLsb'_packBytes (b : Nat → Byte) {j : Nat} (hj : j < 4) :
    (packBytes (b 0) (b 1) (b 2) (b 3)).extractLsb' (8 * j) 8 = b j := by
  have happend : (b 3 ++ b 2 ++ b 1 ++ b 0).extractLsb' (8 * j) 8 = b j := by
    interval_cases j <;> simp [-Nat.reduceAdd, BitVec.extractLsb'_append_eq_ite]
  rw [packBytes_eq_append]
  exact happend

/-- A word's four bytes packed are the word. -/
theorem packBytes_extractLsb' (v : Word) :
    packBytes (v.extractLsb' 0 8) (v.extractLsb' 8 8) (v.extractLsb' 16 8) (v.extractLsb' 24 8) = v := by
  rw [packBytes_eq_append, BitVec.extractLsb'_append_extractLsb'_eq_extractLsb' (start₁ := 16) (len₁ := 8) rfl,
    BitVec.extractLsb'_append_extractLsb'_eq_extractLsb' (start₁ := 8) (len₁ := 8) rfl,
    BitVec.extractLsb'_append_extractLsb'_eq_extractLsb' (start₁ := 0) (len₁ := 8) rfl]
  exact BitVec.extractLsb'_eq_self

/-- Byte `j` of BUFk as read is BUF[4k + j]. -/
theorem extractLsb'_bufWord (s : State) (k : Nat) {j : Nat} (hj : j < 4) :
    (s.bufWord k).extractLsb' (8 * j) 8 = (s.bufByte (4 * k + j)).getD 0 :=
  extractLsb'_packBytes (fun i => (s.bufByte (4 * k + i)).getD 0) hj

/-- A byte of BUF that is there is the byte of its word. -/
theorem bufByte_eq_extractLsb'_bufWord (s : State) (k : Nat) {j : Nat} (hj : j < 4) (hin : 4 * k + j < s.buf.length) :
    s.bufByte (4 * k + j) = some ((s.bufWord k).extractLsb' (8 * j) 8) := by
  rw [extractLsb'_bufWord s k hj]
  simp [State.bufByte, hin]

/-- BUF[4k + j] after a write of BUFk is byte `j` of the word written. -/
theorem bufByte_setBufWord_same (s : State) (k : Nat) (v : Word) {j : Nat} (hj : j < 4)
    (hin : 4 * k + j < s.buf.length) :
    (s.setBufWord k v).bufByte (4 * k + j) = some (v.extractLsb' (8 * j) 8) := by
  unfold State.setBufWord
  interval_cases j
  · rw [bufByte_setBufByte_other _ _ _ _ (by omega), bufByte_setBufByte_other _ _ _ _ (by omega),
      bufByte_setBufByte_other _ _ _ _ (by omega)]
    exact bufByte_setBufByte_same _ _ _ hin
  · rw [bufByte_setBufByte_other _ _ _ _ (by omega), bufByte_setBufByte_other _ _ _ _ (by omega)]
    exact bufByte_setBufByte_same _ _ _ (by simpa using hin)
  · rw [bufByte_setBufByte_other _ _ _ _ (by omega)]
    exact bufByte_setBufByte_same _ _ _ (by simpa using hin)
  · exact bufByte_setBufByte_same _ _ _ (by simpa using hin)

theorem bufWord_setBufWord (s : State) (k : Nat) (v : Word) (hin : 4 * k + 3 < s.buf.length) :
    (s.setBufWord k v).bufWord k = v := by
  have hbyte (j : Nat) (hj : j < 4) := bufByte_setBufWord_same s k v hj (by omega)
  calc (s.setBufWord k v).bufWord k
      = packBytes (v.extractLsb' 0 8) (v.extractLsb' 8 8) (v.extractLsb' 16 8) (v.extractLsb' 24 8) := by
        rw [State.bufWord, hbyte 1 (by omega), hbyte 2 (by omega), hbyte 3 (by omega),
          show 4 * k = 4 * k + 0 from rfl, hbyte 0 (by omega)]
        rfl
    _ = v := packBytes_extractLsb' v

/-- SRCH as read is its three fields one after the other, LAST_DISC lowest. -/
theorem srchWord_eq_append (s : State) :
    s.srchWord = (s.lastFamDisc ++ BitVec.ofBool s.lastDevFlag ++ s.lastDisc).setWidth 32 := by
  have hflag : flagAt 7 s.lastDevFlag = (BitVec.ofBool s.lastDevFlag).setWidth 32 <<< 7 := by
    cases s.lastDevFlag <;> rfl
  rw [BitVec.setWidth_append_append_eq_shiftLeft_setWidth_or, State.srchWord, hflag]
  ac_rfl

/-- ROM is its two words, as read. -/
theorem rom_eq_append (s : State) : s.rom = s.readReg .romHi ++ s.readReg .romLo :=
  (BitVec.extractLsb'_append_extractLsb' (w := 32) (len := 32)).symm

/-- Bytes 0 to 3 of the ROM code are those of ROM_LO. -/
theorem romByte_low (s : State) {k : Nat} (hk : k < 4) :
    romByte s.rom k = (s.readReg .romLo).extractLsb' (8 * k) 8 :=
  (BitVec.extractLsb'_extractLsb'_of_le (by omega)).symm

/-- Bytes 4 to 7 of the ROM code are those of ROM_HI. -/
theorem romByte_high (s : State) {k : Nat} (hk : k < 4) :
    romByte s.rom (4 + k) = (s.readReg .romHi).extractLsb' (8 * k) 8 := by
  calc romByte s.rom (4 + k)
      = (s.readReg .romHi ++ s.readReg .romLo).extractLsb' (8 * (4 + k)) 8 := by rw [← rom_eq_append, romByte]
    _ = (s.readReg .romHi).extractLsb' (8 * (4 + k) - 32) 8 := BitVec.extractLsb'_append_eq_of_le (by omega)
    _ = (s.readReg .romHi).extractLsb' (8 * k) 8 := by rw [show 8 * (4 + k) - 32 = 8 * k by omega]

theorem rom_setRomLo_setRomHi (s : State) (lo hi : Word) : ((s.setRomLo lo).setRomHi hi).rom = hi ++ lo :=
  congrArg (hi ++ ·) BitVec.extractLsb'_append_eq_right

theorem rom_setRomHi_setRomLo (s : State) (lo hi : Word) : ((s.setRomHi hi).setRomLo lo).rom = hi ++ lo :=
  congrArg (· ++ lo) BitVec.extractLsb'_append_eq_left

/-- Settles O20: the bytes of BUF and ROM are those of their words. -/
theorem packingIsLittleEndian : Obligations.PackingIsLittleEndian := by
  intro s v hi lo k hin
  exact ⟨bufByte_eq_extractLsb'_bufWord s k (j := 0) (by omega) (by omega),
    bufByte_eq_extractLsb'_bufWord s k (j := 3) (by omega) hin, bufWord_setBufWord s k v hin,
    romByte_low s (k := 0) (by omega), romByte_low s (k := 3) (by omega),
    romByte_high s (k := 0) (by omega), romByte_high s (k := 3) (by omega),
    rom_eq_append s, rom_setRomLo_setRomHi s lo hi, rom_setRomHi_setRomLo s lo hi⟩

/-! ## The register map -/

/-- Settles O17: an idle write is the register's own, and beside SRCH, the reserved offsets and BUF each row is what the
register's read and write say. -/
theorem registerWindow : Obligations.RegisterWindow := by
  intro s v hidle rd wr
  have hwr (off : Nat) : wr off = s.writeRegIdle (regAt s.params.blockMax off) v := hostWriteReg_of_idle _ v hidle
  have hreserved (off : Nat) (h4 : off % 4 = 0)
      (hoff : (0x44 < off ∧ off < 0x80) ∨ (0x80 ≤ off ∧ s.params.blockMax ≤ off - 0x80)) :
      rd off = 0 ∧ wr off = s := by
    have hreg := regAt_reserved h4 hoff
    exact ⟨congrArg s.readReg hreg, by rw [hwr, hreg]; rfl⟩
  refine ⟨rfl, hwr 0x00, rfl, hwr 0x04, rfl, hwr 0x08, rfl, hwr 0x0C, srchWord_eq_append s, hwr 0x10, rfl, hwr 0x14,
    rfl, hwr 0x18, rfl, hwr 0x1C, rfl, hwr 0x20, rfl, hwr 0x24, rfl, hwr 0x28, rfl, hwr 0x2C, rfl, hwr 0x30, rfl,
    hwr 0x34, rfl, hwr 0x38, rfl, hwr 0x3C, rfl, hwr 0x40, rfl, hwr 0x44, hreserved, fun k hk => ?_⟩
  have hread : rd (0x80 + 4 * k) = s.bufWord k := congrArg s.readReg (regAt_buf hk)
  have hwrite : wr (0x80 + 4 * k) = s.setBufWord k v := by rw [hwr, regAt_buf hk]; rfl
  rw [hread, hwrite]
  exact ⟨fun _ hj => extractLsb'_bufWord s k hj, fun _ hj hin => bufByte_setBufWord_same s k v hj hin,
    fun b hb => bufByte_setBufWord_other s k b v hb, rfl⟩

end Sys2Proof.Machine
end

section
/-! Command words (O1 to O4, O6): what a word decodes to, said by its fields; a command's word and the used bits of a
word; the assembler (30_encoding.md R80 to R85, R87). -/

namespace Sys2Proof

open Laws.OpField (opOf)

/-! ## Decoding, said by the fields -/

/-- The operand of a command is what the word holds in the operand's field or bit (30_encoding.md R81). -/
def Instr.OperandIn (w : Word) : Instr → Prop
  | .owReset => True
  | .owWriteBit bit => bit = (imm8Field w).getLsbD 0
  | .owReadBit => True
  | .owWriteByte byte => byte = imm8Field w
  | .owReadByte => True
  | .owTouchByte byte => byte = imm8Field w
  | .owBlockTouch len => len = imm8Field w
  | .owSearchFirst => True
  | .owSearchNext => True
  | .crc8Update byte => byte = imm8Field w
  | .delay ticks => ticks = imm16Field w

/-- A word with a command's OP and operand decodes to it, if it is well formed. -/
theorem decode_of_fields {blockMax : Nat} {w : Word} {i : Instr} (hop : opField w = opOf i) (hoperand : i.OperandIn w)
    (hwf : i.wf blockMax = true) : decode blockMax w = .ok i := by
  unfold decode
  rw [hop]
  cases i with
  | owBlockTouch len =>
    obtain rfl : len = imm8Field w := hoperand
    exact if_pos (of_decide_eq_true hwf)
  | owReset | owReadBit | owReadByte | owSearchFirst | owSearchNext => rfl
  | owWriteBit _ | owWriteByte _ | owTouchByte _ | crc8Update _ | delay _ => cases hoperand; rfl

/-- A word that decodes has its command's OP and operand. -/
theorem fields_of_decode {blockMax : Nat} {w : Word} {i : Instr} (h : decode blockMax w = .ok i) :
    opField w = opOf i ∧ i.OperandIn w := by
  unfold decode at h
  split at h
  case h_7 hop =>
    split at h
    · cases h; exact ⟨BitVec.eq_of_toNat_eq hop, rfl⟩
    · cases h
  case h_12 => cases h
  all_goals
    next hop =>
    cases h
    exact ⟨BitVec.eq_of_toNat_eq hop, by simp [Instr.OperandIn]⟩

/-- Why a word is illegal, if it is (30_encoding.md R84). -/
def illegality (w : Word) : Illegal :=
  if opField w = 0x07 then .blockTooLong (imm8Field w) else .noSuchOp (opField w)

/-- R84's three conditions are what R86's `Legal` denies. -/
theorem legal_eq_false_iff (blockMax : Nat) (w : Word) :
    legal blockMax w = false ↔
      opField w = 0x00 ∨ 0x0C ≤ (opField w).toNat ∨ (opField w = 0x07 ∧ blockMax < (imm8Field w).toNat) := by
  simp only [legal, ← BitVec.toNat_inj, BitVec.reduceToNat, Bool.and_eq_false_iff, Bool.not_eq_false',
    Bool.and_eq_true, decide_eq_false_iff_not, decide_eq_true_eq]
  omega

/-- A word is legal and decodes, or is illegal and is refused by R84's condition that it meets. -/
theorem decode_cases (blockMax : Nat) (w : Word) :
    (legal blockMax w = true ∧ ∃ i, decode blockMax w = .ok i)
    ∨ (legal blockMax w = false ∧ decode blockMax w = .error (illegality w)) := by
  unfold decode
  split
  case h_7 hop =>
    have hseven : opField w = 0x07 := BitVec.eq_of_toNat_eq hop
    by_cases hlen : (imm8Field w).toNat ≤ blockMax
    · exact .inl ⟨by simp [legal, hop, hlen], _, if_pos hlen⟩
    · exact .inr ⟨by simpa [legal, hop] using hlen, by rw [if_neg hlen, illegality, if_pos hseven]⟩
  case h_12 =>
    have hop : (opField w).toNat = 0 ∨ 12 ≤ (opField w).toNat := by grind
    have hother : opField w ≠ 0x07 := fun hseven => by simp [hseven] at hop
    exact .inr ⟨(legal_eq_false_iff _ _).2 (hop.imp BitVec.eq_of_toNat_eq .inl), by rw [illegality, if_neg hother]⟩
  all_goals
    next hop => exact .inl ⟨by simp [legal, hop], _, rfl⟩

theorem decode_of_legal {blockMax : Nat} {w : Word} (h : legal blockMax w = true) :
    ∃ i, decode blockMax w = .ok i := by
  rcases decode_cases blockMax w with ⟨-, hok⟩ | ⟨hillegal, -⟩
  · exact hok
  · exact absurd h (by simp [hillegal])

theorem decode_of_illegal {blockMax : Nat} {w : Word} (h : legal blockMax w = false) :
    decode blockMax w = .error (illegality w) := by
  rcases decode_cases blockMax w with ⟨hlegal, -⟩ | ⟨-, herror⟩
  · exact absurd h (by simp [hlegal])
  · exact herror

/-- Settles O4: a legal word decodes to a well-formed command, any other is refused by name. -/
theorem everyWordLegalOrIllegal : Obligations.EveryWordLegalOrIllegal := by
  intro blockMax w
  refine ⟨fun hlegal => ?_, fun hillegal => ⟨_, decode_of_illegal hillegal⟩, legal_eq_false_iff blockMax w⟩
  obtain ⟨i, hdecode⟩ := decode_of_legal hlegal
  exact ⟨i, hdecode, Machine.wf_of_decode hdecode⟩

/-- Settles O1: each word by its row of the tables, the refusals among them. -/
theorem wordsOfTheTableDecode : Obligations.WordsOfTheTableDecode :=
  ⟨rfl, rfl, rfl, rfl, rfl, rfl, rfl, rfl, rfl, rfl, rfl, rfl⟩

/-! ## A command's word and the used bits of a word -/

theorem opField_encode (i : Instr) : opField (encode i) = opOf i := by
  cases i <;> exact opField_wordOfFields _ _ _

theorem operandIn_encode (i : Instr) : i.OperandIn (encode i) := by
  cases i with
  | owReset | owReadBit | owReadByte | owSearchFirst | owSearchNext => trivial
  | owWriteBit bit => cases bit <;> rfl
  | owWriteByte _ | owTouchByte _ | owBlockTouch _ | crc8Update _ => exact (imm8Field_wordOfFields _ _ _).symm
  | delay _ => exact (imm16Field_wordOfFields _ _ _).symm

/-- Settles O2: a command's word has its OP and holds its operand, which is all that decoding reads. -/
theorem decodeOfEncode : Obligations.DecodeOfEncode := by
  intro blockMax i hwf
  exact decode_of_fields (opField_encode i) (operandIn_encode i) hwf

/-- The bits of IMM8 that a command uses (30_encoding.md R81, R83). -/
def usedImm8 : Instr → Byte
  | .owReset | .owReadBit | .owReadByte | .owSearchFirst | .owSearchNext | .delay _ => 0#8
  | .owWriteBit _ => 1#8
  | .owWriteByte _ | .owTouchByte _ | .owBlockTouch _ | .crc8Update _ => BitVec.allOnes 8

/-- The bits of IMM16 that a command uses (30_encoding.md R81, R83). -/
def usedImm16 : Instr → Ticks
  | .delay _ => BitVec.allOnes 16
  | _ => 0#16

theorem usedMask_of_op {w : Word} {i : Instr} (hop : opField w = opOf i) :
    usedMask w = wordOfFields (BitVec.allOnes 8) (usedImm8 i) (usedImm16 i) := by
  rw [usedMask, hop]
  cases i <;> simp [opOf, usedImm8, usedImm16, wordOfFields]

/-- The used bits of a word, field by field: OP is used whole. -/
theorem and_usedMask {w : Word} {i : Instr} (hop : opField w = opOf i) :
    w &&& usedMask w = wordOfFields (opOf i) (imm8Field w &&& usedImm8 i) (imm16Field w &&& usedImm16 i) := by
  rw [usedMask_of_op hop]
  apply word_ext
  · rw [opField_and, opField_wordOfFields, opField_wordOfFields, BitVec.and_allOnes, hop]
  · simp
  · simp

theorem byte_and_one (v : Byte) : v &&& 1#8 = if v.getLsbD 0 then 1 else 0 := by
  revert v; decide +kernel

/-- The word of a command, from the fields of any word with its operand. -/
theorem encode_of_operandIn {w : Word} {i : Instr} (hoperand : i.OperandIn w) :
    encode i = wordOfFields (opOf i) (imm8Field w &&& usedImm8 i) (imm16Field w &&& usedImm16 i) := by
  cases i with
  | owReset | owReadBit | owReadByte | owSearchFirst | owSearchNext =>
    simp only [usedImm8, usedImm16, BitVec.and_zero]
    rfl
  | owWriteBit bit =>
    obtain rfl : bit = (imm8Field w).getLsbD 0 := hoperand
    simp only [usedImm8, usedImm16, BitVec.and_zero, byte_and_one]
    rfl
  | owWriteByte v | owTouchByte v | owBlockTouch v | crc8Update v =>
    obtain rfl : v = imm8Field w := hoperand
    simp only [usedImm8, usedImm16, BitVec.and_zero, BitVec.and_allOnes]
    rfl
  | delay ticks =>
    obtain rfl : ticks = imm16Field w := hoperand
    simp only [usedImm8, usedImm16, BitVec.and_zero, BitVec.and_allOnes]
    rfl

/-- Settles O3: the command's word and the word's used bits have the same fields. -/
theorem encodeOfDecode : Obligations.EncodeOfDecode := by
  intro blockMax w i hdecode
  obtain ⟨hop, hoperand⟩ := fields_of_decode hdecode
  exact ⟨Machine.wf_of_decode hdecode, (encode_of_operandIn hoperand).trans (and_usedMask hop).symm⟩

/-! ## The assembler (30_encoding.md R87) -/

theorem asmOperand_eq_some (top : Nat) (operand : Option Nat) (n : Nat) :
    asmOperand top operand = some n ↔ operand = some n ∧ n ≤ top := by
  cases operand with
  | none => simp [asmOperand]
  | some m => grind [asmOperand]

theorem asmOperand_eq_none (top : Nat) (operand : Option Nat) :
    asmOperand top operand = none ↔ ∀ n, operand = some n → top < n := by
  cases operand <;> simp [asmOperand]

theorem asmPlain_eq_some (op : Byte) (operand : Option Nat) (w : Word) :
    asmPlain op operand = some w ↔ operand = none ∧ wordOfFields op 0 0 = w := by
  cases operand <;> simp [asmPlain]

theorem asmPlain_eq_none (op : Byte) (operand : Option Nat) : asmPlain op operand = none ↔ operand ≠ none := by
  cases operand <;> simp [asmPlain]

theorem asmImm8_eq_some (op : Byte) (top : Nat) (operand : Option Nat) (w : Word) :
    asmImm8 op top operand = some w ↔
      ∃ n, (operand = some n ∧ n ≤ top) ∧ wordOfFields op (BitVec.ofNat 8 n) 0 = w := by
  simp only [asmImm8, Option.map_eq_some_iff, asmOperand_eq_some]

theorem asmImm8_eq_none (op : Byte) (top : Nat) (operand : Option Nat) :
    asmImm8 op top operand = none ↔ ∀ n, operand = some n → top < n := by
  rw [asmImm8, Option.map_eq_none_iff, asmOperand_eq_none]

/-- Every word the assembler makes is the word of a well-formed command. -/
theorem exists_encode_of_assemble {blockMax : Nat} {name : AsmName} {operand : Option Nat} {w : Word}
    (h : assemble blockMax name operand = some w) : ∃ i : Instr, i.wf blockMax = true ∧ encode i = w := by
  cases name with
  | owDotReset => exact ⟨.owReset, rfl, ((asmPlain_eq_some _ _ _).1 h).2⟩
  | owDotRbit => exact ⟨.owReadBit, rfl, ((asmPlain_eq_some _ _ _).1 h).2⟩
  | owDotRbyte => exact ⟨.owReadByte, rfl, ((asmPlain_eq_some _ _ _).1 h).2⟩
  | owDotFirst => exact ⟨.owSearchFirst, rfl, ((asmPlain_eq_some _ _ _).1 h).2⟩
  | owDotNext => exact ⟨.owSearchNext, rfl, ((asmPlain_eq_some _ _ _).1 h).2⟩
  | owDotWbit =>
    obtain ⟨n, ⟨-, hn⟩, hw⟩ := (asmImm8_eq_some _ _ _ _).1 h
    refine ⟨.owWriteBit (decide (n = 1)), rfl, hw ▸ ?_⟩
    interval_cases n <;> rfl
  | owDotWbyte =>
    obtain ⟨n, -, hw⟩ := (asmImm8_eq_some _ _ _ _).1 h
    exact ⟨.owWriteByte (BitVec.ofNat 8 n), rfl, hw⟩
  | owDotTouch =>
    obtain ⟨n, -, hw⟩ := (asmImm8_eq_some _ _ _ _).1 h
    exact ⟨.owTouchByte (BitVec.ofNat 8 n), rfl, hw⟩
  | crc8 =>
    obtain ⟨n, -, hw⟩ := (asmImm8_eq_some _ _ _ _).1 h
    exact ⟨.crc8Update (BitVec.ofNat 8 n), rfl, hw⟩
  | owDotBlock =>
    obtain ⟨n, ⟨-, hn⟩, hw⟩ := (asmImm8_eq_some _ _ _ _).1 h
    have hlen : (BitVec.ofNat 8 n).toNat ≤ blockMax := (Nat.mod_le n _).trans hn
    exact ⟨.owBlockTouch (BitVec.ofNat 8 n), decide_eq_true hlen, hw⟩
  | delay =>
    obtain ⟨n, -, hw⟩ := Option.map_eq_some_iff.1 h
    exact ⟨.delay (BitVec.ofNat 16 n), rfl, hw⟩

theorem wordOfFields_imm8 (op : Byte) {v : Nat} (hv : v ≤ 255) :
    wordOfFields op (BitVec.ofNat 8 v) 0 = op.setWidth 32 ||| (BitVec.ofNat 32 v <<< 8) := by
  have hbyte : (BitVec.ofNat 8 v).setWidth 32 = BitVec.ofNat 32 v :=
    BitVec.setWidth_ofNat_of_le_of_lt (by decide) (by omega)
  simp [wordOfFields, hbyte]

theorem wordOfFields_imm16 (op : Byte) {t : Nat} (ht : t ≤ 65535) :
    wordOfFields op 0 (BitVec.ofNat 16 t) = op.setWidth 32 ||| (BitVec.ofNat 32 t <<< 16) := by
  have hticks : (BitVec.ofNat 16 t).setWidth 32 = BitVec.ofNat 32 t :=
    BitVec.setWidth_ofNat_of_le_of_lt (by decide) (by omega)
  simp [wordOfFields, hticks]

/-- An operand in range that fits IMM8 stands there. -/
theorem asmImm8_of_le (op : Byte) {top v : Nat} (htop : v ≤ top) (hv : v ≤ 255) :
    asmImm8 op top (some v) = some (op.setWidth 32 ||| (BitVec.ofNat 32 v <<< 8)) :=
  (asmImm8_eq_some _ _ _ _).2 ⟨v, ⟨rfl, htop⟩, wordOfFields_imm8 op hv⟩

/-- Settles O6: a row takes no operand, or one in IMM8, or is DELAY's; a word made is some command's own. -/
theorem assemblerWords : Obligations.AssemblerWords := by
  intro blockMax
  refine ⟨fun name operand => ?_, fun name operand w h => ?_, rfl, rfl, rfl, rfl, rfl, fun b hb => ?_, fun v hv => ?_,
    fun n hn hn' => ?_, fun t ht => ?_⟩
  · cases name with
    | owDotReset | owDotRbit | owDotRbyte | owDotFirst | owDotNext => exact asmPlain_eq_none _ _
    | owDotWbit | owDotWbyte | owDotTouch | owDotBlock | crc8 => exact asmImm8_eq_none _ _ _
    | delay => exact Option.map_eq_none_iff.trans (asmOperand_eq_none _ _)
  · obtain ⟨i, hwf, hencode⟩ := exists_encode_of_assemble h
    exact ⟨i, hencode ▸ decodeOfEncode blockMax i hwf, hencode⟩
  · exact asmImm8_of_le 0x02 hb (by omega)
  · exact ⟨asmImm8_of_le 0x04 hv hv, asmImm8_of_le 0x06 hv hv, asmImm8_of_le 0x0A hv hv⟩
  · exact asmImm8_of_le 0x07 hn hn'
  · exact Option.map_eq_some_iff.2 ⟨t, (asmOperand_eq_some _ _ _).2 ⟨rfl, ht⟩, wordOfFields_imm16 0x0B ht⟩

end Sys2Proof
end

section
/-! The word in CUR (O5, O8): what a command does does not depend on it, so a word runs as the same word with its unused
fields zero; and what a write of CMD does (30_encoding.md R83, R86). -/

namespace Sys2Proof.Machine

open Sys2Proof

/-! ## What a command does does not depend on the word in CUR -/

theorem answered_withCur (s : State) (c : Word) :
    ({ s with cur := c } : State).answered = { s.answered with cur := c } := by
  simp only [State.answered, State.dropLevel]
  split
  · rfl
  · cases s.levels <;> rfl

theorem sample_withCur (s : State) (c : Word) (d : Dest) :
    ({ s with cur := c } : State).sample d = { s.sample d with cur := c } := by
  simp only [State.sample, answered_withCur]
  cases d <;> rfl

theorem passEnd_withCur (s : State) (c : Word) :
    ({ s with cur := c } : State).passEnd = { s.passEnd with cur := c } := by
  simp only [State.passEnd]
  split
  · rfl
  split
  · rfl
  split <;> rfl

theorem direction_withCur (s : State) (c : Word) :
    ({ s with cur := c } : State).direction = { s.direction with cur := c } := by
  have hbranch : ({ s with cur := c } : State).branch = s.branch := rfl
  simp only [State.direction, hbranch]
  split
  · exact passEnd_withCur { s with temps := { s.temps with ok := false } } c
  split
  · rfl
  split <;> rfl

theorem doAct_withCur (s : State) (c : Word) (a : Act) :
    ({ s with cur := c } : State).doAct a = { s.doAct a with cur := c } := by
  cases a with
  | passBegin => simp only [State.doAct, State.passBegin]; split <;> rfl
  | presenceCheck => simp only [State.doAct, State.presenceCheck]; split <;> rfl
  | direction => exact direction_withCur s c
  | passEnd => exact passEnd_withCur s c
  | clearByte | storeByte _ | resetSearch | loopBegin | advance => rfl

theorem doOp_withCur (s : State) (c : Word) (op : Op) :
    ({ s with cur := c } : State).doOp op = { s.doOp op with cur := c } := by
  cases op with
  | sample d => exact sample_withCur s c d
  | act a => exact doAct_withCur s c a
  | drive | release | delay _ | delayDir _ _ => rfl

theorem complete_withCur (s : State) (c : Word) (r : Completion) :
    ({ s with cur := c } : State).complete r = { s.complete r with cur := c } := by
  cases r with
  | search => simp only [State.complete, State.writeSearchResult]; split <;> rfl
  | nothing | presence | data | crc _ => rfl

theorem finish_withCur (s : State) (c : Word) (p : Program) :
    ({ s with cur := c } : State).finish p = { s.finish p with cur := c } := by
  have hrun := runOps_commute (fun x => { x with cur := c }) p.ops (fun _ => rfl)
    (fun op _ x => doOp_withCur x c op) s
  simp only [State.finish, hrun, complete_withCur]

/-- A well-formed command runs alike from two states that differ in CUR. -/
theorem exec_withCur {s t : State} {i : Instr} (c : Word) (hwf : i.wf s.params.blockMax = true)
    (h : exec i s = .next t) : exec i { s with cur := c } = .next { t with cur := c } := by
  rw [exec_wf hwf] at h
  cases h
  have hprogram : programOf i { s with cur := c } = programOf i s := by cases i <;> rfl
  rw [exec_wf (s := { s with cur := c }) hwf, hprogram]
  exact congrArg _ (finish_withCur { s with temps := Temps.fresh } c _)

/-! ## A word and its used bits -/

theorem opField_and_usedMask (w : Word) : opField (w &&& usedMask w) = opField w := by
  have hop : opField (usedMask w) = BitVec.allOnes 8 := by
    unfold usedMask
    split <;> rfl
  rw [opField_and, hop, BitVec.and_allOnes]

/-- OW_BLOCK_TOUCH uses all of IMM8 (30_encoding.md R81). -/
theorem imm8Field_and_usedMask {w : Word} (hop : opField w = 0x07) : imm8Field (w &&& usedMask w) = imm8Field w := by
  have himm8 : imm8Field (usedMask w) = BitVec.allOnes 8 := by
    rw [usedMask, hop]
    rfl
  rw [imm8Field_and, himm8, BitVec.and_allOnes]

/-- A word's legality is told by OP and, for a block touch, by IMM8, and so by the used bits. -/
theorem legal_and_usedMask (blockMax : Nat) (w : Word) : legal blockMax (w &&& usedMask w) = legal blockMax w := by
  by_cases hop : opField w = 0x07
  · simp only [legal, opField_and_usedMask, imm8Field_and_usedMask hop]
  · have hnat : (opField w).toNat ≠ 0x07 := fun h => hop (BitVec.eq_of_toNat_eq h)
    simp only [legal, opField_and_usedMask, hnat, decide_false, Bool.false_and]

theorem illegality_and_usedMask (w : Word) : illegality (w &&& usedMask w) = illegality w := by
  rw [illegality, illegality, opField_and_usedMask]
  split
  · next hop => rw [imm8Field_and_usedMask hop]
  · rfl

/-- The used bits of a legal word are its command's own word, which decodes to that command; those of an illegal word
are illegal for the same reason. -/
theorem decode_and_usedMask (blockMax : Nat) (w : Word) : decode blockMax (w &&& usedMask w) = decode blockMax w := by
  rcases decode_cases blockMax w with ⟨-, i, hdecode⟩ | ⟨hillegal, hdecode⟩
  · obtain ⟨hwf, hencode⟩ := encodeOfDecode blockMax w i hdecode
    rw [hdecode, ← hencode, decodeOfEncode blockMax i hwf]
  · rw [hdecode, decode_of_illegal ((legal_and_usedMask blockMax w).trans hillegal), illegality_and_usedMask]

/-! ## The step that runs a word -/

/-- The step that runs a word just accepted is its command's meaning. -/
theorem step_placeCommand {s : State} {w : Word} {i : Instr} (hdecode : decode s.params.blockMax w = .ok i) :
    step (s.placeCommand w) = exec i { s.accept w with inReset := false } :=
  (stepRunsTheAcceptedCommand (s.placeCommand w) i rfl rfl rfl hdecode).2 s.inputs rfl

/-- No illegal word runs. -/
theorem step_placeCommand_illegal {s : State} {w : Word} {e : Illegal}
    (hdecode : decode s.params.blockMax w = .error e) : step (s.placeCommand w) = .fault .sequencerStuck := by
  rw [step_of_run (s := s.placeCommand w) rfl]
  simp [State.runToCompletion, State.command, State.placeCommand, State.accept, hdecode]

/-- Settles O5: the two words decode alike, and the run of the command does not see the word. -/
theorem unusedFieldsIgnored : Obligations.UnusedFieldsIgnored := by
  intro blockMax w
  refine ⟨decode_and_usedMask blockMax w, legal_and_usedMask blockMax w, fun s t hstep => ?_⟩
  cases hdecode : decode s.params.blockMax w with
  | error e =>
    rw [step_placeCommand_illegal hdecode] at hstep
    cases hstep
  | ok i =>
    rw [step_placeCommand hdecode] at hstep
    rw [step_placeCommand ((decode_and_usedMask _ w).trans hdecode)]
    exact exec_withCur (s := { s.accept w with inReset := false }) _ (wf_of_decode hdecode) hstep

/-! ## The write of CMD (30_encoding.md R86) -/

/-- Settles O8: the write at offset 0x00 is CMD's, BUSY or idle. -/
theorem cmdWriteIsHandledAtOnce : Obligations.CmdWriteIsHandledAtOnce := by
  intro s w rest hreset hinputs
  have hstep : step s = .next (({ s with inputs := rest } : State).hostWriteReg .cmd w) :=
    step_hostWrite_window hreset (by decide) (by decide) hinputs
  refine ⟨fun hbusy => ?_, fun hidle hillegal => ?_, fun hidle hlegal => ?_⟩
  · rw [hstep, State.hostWriteReg, if_pos hbusy]
    rfl
  · rw [hstep, hostWriteReg_of_idle (s := { s with inputs := rest }) _ w hidle]
    simp [State.writeRegIdle, State.submit, hillegal, State.setIll]
  · refine ⟨({ s with inputs := rest } : State).accept w, ?_, rfl, rfl, rfl⟩
    rw [hstep, hostWriteReg_of_idle (s := { s with inputs := rest }) _ w hidle]
    simp [State.writeRegIdle, State.submit, hlegal]

end Sys2Proof.Machine
end

section
/-! Timing (O33, O47, O51): DELAY's one wait, the cycles of a wait counted down, and that T_G is read by the host alone
(40_timing.md R100, R102, R104, R107). -/

namespace Sys2Proof.Machine

open Sys2Proof

/-! ## Another value of T_G -/

/-- The same block with another value of T_G (40_timing.md R103). -/
def State.withG (x : Ticks) (s : State) : State :=
  { s with params := { s.params with profile := { s.params.profile with tG := x } } }

theorem dropLevel_withG (x : Ticks) (s : State) : (s.withG x).dropLevel = s.dropLevel.withG x := by
  cases hlevels : s.levels <;> simp [State.dropLevel, State.withG, hlevels]

theorem answered_withG (x : Ticks) (s : State) : (s.withG x).answered = s.answered.withG x := by
  simp only [State.answered, dropLevel_withG, apply_ite (State.withG x)]
  rfl

theorem sample_withG (x : Ticks) (s : State) (d : Dest) : (s.withG x).sample d = (s.sample d).withG x := by
  simp only [State.sample, answered_withG]
  cases d <;> rfl

theorem passEnd_withG (x : Ticks) (s : State) : (s.withG x).passEnd = s.passEnd.withG x := by
  simp only [State.passEnd, apply_ite (State.withG x)]
  rfl

theorem direction_withG (x : Ticks) (s : State) : (s.withG x).direction = s.direction.withG x := by
  simp only [State.direction, apply_ite (State.withG x), ← passEnd_withG]
  rfl

theorem doAct_withG (x : Ticks) (s : State) (a : Act) : (s.withG x).doAct a = (s.doAct a).withG x := by
  cases a with
  | passBegin => simp only [State.doAct, State.passBegin, apply_ite (State.withG x)]; rfl
  | presenceCheck => simp only [State.doAct, State.presenceCheck, apply_ite (State.withG x)]; rfl
  | direction => exact direction_withG x s
  | passEnd => exact passEnd_withG x s
  | clearByte | storeByte _ | resetSearch | loopBegin | advance => rfl

/-- An element carries its own ticks: of the parameters it reads only CLK_HZ and EVENT_LATENCY. -/
theorem doOp_withG (x : Ticks) (s : State) (op : Op) : (s.withG x).doOp op = (s.doOp op).withG x := by
  cases op with
  | sample d => exact sample_withG x s d
  | act a => exact doAct_withG x s a
  | drive | release | delay _ | delayDir _ _ => rfl

theorem writeSearchResult_withG (x : Ticks) (s : State) :
    (s.withG x).writeSearchResult = s.writeSearchResult.withG x :=
  congrArg (State.setOutcome · s.temps.res) (apply_ite (State.withG x) _ (s.setPresence s.temps.p) s).symm

theorem complete_withG (x : Ticks) (s : State) (c : Completion) :
    (s.withG x).complete c = (s.complete c).withG x := by
  cases c with
  | search => exact congrArg State.retire (writeSearchResult_withG x s)
  | nothing | presence | data | crc _ => rfl

theorem finish_withG (x : Ticks) (s : State) (p : Program) : (s.withG x).finish p = (s.finish p).withG x := by
  have hrun : runOps p.ops (s.withG x) = (runOps p.ops s).withG x :=
    runOps_commute (State.withG x) p.ops (fun _ => rfl) (fun op _ u => doOp_withG x u op) s
  simp only [State.finish, hrun, complete_withG]

theorem touchBufOps_withG (x : Ticks) (p : Profile) (k : Nat) (bytes : List Byte) :
    touchBufOps { p with tG := x } k bytes = touchBufOps p k bytes := by
  induction bytes generalizing k with
  | nil => rfl
  | cons v rest ih => exact congrArg (touchByteOps p v ++ .act (.storeByte k) :: ·) (ih (k + 1))

/-- No slot is made with T_G (40_timing.md R104). -/
theorem programOf_withG (x : Ticks) (i : Instr) (s : State) : programOf i (s.withG x) = programOf i s := by
  cases i with
  | owBlockTouch len => exact congrArg (Program.mk · .nothing) (touchBufOps_withG x s.params.profile 0 _)
  | _ => rfl

/-- A block touch longer than BUF never starts. -/
theorem exec_not_wf {i : Instr} {s : State} (h : i.wf s.params.blockMax = false) :
    exec i s = .next s.setIll.retire := by
  cases i with
  | owBlockTouch len => exact if_neg (of_decide_eq_false h)
  | _ => cases h

theorem exec_withG {i : Instr} {s t : State} (x : Ticks) (h : exec i s = .next t) :
    exec i (s.withG x) = .next (t.withG x) := by
  cases hwf : i.wf s.params.blockMax with
  | true =>
    rw [exec_wf hwf] at h
    cases h
    rw [exec_wf (s := s.withG x) hwf, programOf_withG]
    exact congrArg _ (finish_withG x { s with temps := Temps.fresh } _)
  | false =>
    rw [exec_not_wf hwf] at h
    cases h
    exact exec_not_wf (s := s.withG x) hwf

theorem readReg_withG (x : Ticks) (s : State) {r : Reg} (h : r ≠ .time .g) : (s.withG x).readReg r = s.readReg r := by
  cases r with
  | time k =>
    cases k with
    | g => exact absurd rfl h
    | _ => rfl
  | _ => rfl

/-- Settles O47: a command's program and the run of it do not see T_G; of the registers only T_G's own shows it. -/
theorem constantGIsUnused : Obligations.ConstantGIsUnused :=
  ⟨fun _ _ _ x h => exec_withG x h, fun s x => ⟨rfl, fun _ h => readReg_withG x s h⟩⟩

/-! ## A wait's cycles -/

/-- With cycles of a wait left, a move counts one of them and does nothing else (40_timing.md R102). -/
theorem sequencerMove_waiting {s : State} {p : Program} (hbusy : s.busy = true) (hreset : s.inReset = false)
    (hp : s.progress = some p) (hwait : 0 < s.waitLeft) :
    s.sequencerMove = .next { s with waitLeft := s.waitLeft - 1 } := by
  rw [sequencerMove_begun hbusy hreset hp, State.advanceProgram, if_pos hwait]

theorem sequencerMoves_succ {s t : State} (k : Nat) (hmove : s.sequencerMove = .next t) :
    sequencerMoves (k + 1) s = sequencerMoves k t := by
  simp [sequencerMoves, hmove]

/-- As many moves as there are cycles left, or fewer, count as many cycles. -/
theorem sequencerMoves_waiting {k : Nat} {s : State} {p : Program} (hbusy : s.busy = true) (hreset : s.inReset = false)
    (hp : s.progress = some p) (hk : k ≤ s.waitLeft) :
    sequencerMoves k s = some { s with waitLeft := s.waitLeft - k } := by
  induction k generalizing s with
  | zero => rfl
  | succ k ih =>
    have hmove := sequencerMove_waiting hbusy hreset hp (Nat.zero_lt_of_lt hk)
    have hrest := ih (s := { s with waitLeft := s.waitLeft - 1 }) hbusy hreset hp (Nat.le_sub_one_of_lt hk)
    rw [sequencerMoves_succ k hmove, hrest, Nat.sub_sub, Nat.add_comm 1 k]

/-- Settles O51: by induction on the number of moves. -/
theorem waitCountsItsCycles : Obligations.WaitCountsItsCycles :=
  ⟨fun _ _ => ⟨rfl, rfl⟩, fun _ _ _ hbusy hreset hp hk => sequencerMoves_waiting hbusy hreset hp hk⟩

/-! ## DELAY -/

/-- DELAY is one `Delay(ticks)` and the completion (40_timing.md R107). -/
theorem exec_delay (ticks : Ticks) (s : State) :
    exec (.delay ticks) s = .next (({ s with temps := Temps.fresh } : State).delay ticks).retire := rfl

/-- Settles O33: the wait's one event is all that DELAY leaves. -/
theorem delayResult : Obligations.DelayResult :=
  ⟨fun _ _ hop => decode_of_fields (i := .delay _) hop rfl rfl, fun s ticks => ⟨_, exec_delay ticks s, rfl, rfl⟩⟩

end Sys2Proof.Machine
end

section
/-! The host beside a command in progress (O22): a command neither reads nor writes the sticky bits, which are all that
a host write changes while BUSY is 1 (41_transactor.md R138, 70_reset_and_hazards.md R254). -/

namespace Sys2Proof.Machine

open Sys2Proof

/-- The same block with other sticky bits (10_state.md R22). -/
def State.withSticky (ovr ill : Bool) (s : State) : State := { s with ovr := ovr, ill := ill }

theorem dropLevel_withSticky (a b : Bool) (s : State) :
    (s.withSticky a b).dropLevel = s.dropLevel.withSticky a b := by
  cases hlevels : s.levels <;> simp [State.dropLevel, State.withSticky, hlevels]

theorem sample_withSticky (a b : Bool) (s : State) (d : Dest) :
    (s.withSticky a b).sample d = (s.sample d).withSticky a b := by
  have hanswered : (s.withSticky a b).answered = s.answered.withSticky a b := by
    simp only [State.answered, dropLevel_withSticky, apply_ite (State.withSticky a b)]
    rfl
  simp only [State.sample, hanswered]
  cases d <;> rfl

theorem passEnd_withSticky (a b : Bool) (s : State) : (s.withSticky a b).passEnd = s.passEnd.withSticky a b := by
  simp only [State.passEnd, apply_ite (State.withSticky a b)]
  rfl

theorem direction_withSticky (a b : Bool) (s : State) :
    (s.withSticky a b).direction = s.direction.withSticky a b := by
  simp only [State.direction, apply_ite (State.withSticky a b), ← passEnd_withSticky]
  rfl

theorem doAct_withSticky (a b : Bool) (s : State) (act : Act) :
    (s.withSticky a b).doAct act = (s.doAct act).withSticky a b := by
  cases act with
  | passBegin => simp only [State.doAct, State.passBegin, apply_ite (State.withSticky a b)]; rfl
  | presenceCheck => simp only [State.doAct, State.presenceCheck, apply_ite (State.withSticky a b)]; rfl
  | direction => exact direction_withSticky a b s
  | passEnd => exact passEnd_withSticky a b s
  | clearByte | storeByte _ | resetSearch | loopBegin | advance => rfl

theorem doOp_withSticky (a b : Bool) (s : State) (op : Op) :
    (s.withSticky a b).doOp op = (s.doOp op).withSticky a b := by
  cases op with
  | sample d => exact sample_withSticky a b s d
  | act act => exact doAct_withSticky a b s act
  | drive | release | delay _ | delayDir _ _ => rfl

theorem complete_withSticky (a b : Bool) (s : State) (c : Completion) :
    (s.withSticky a b).complete c = (s.complete c).withSticky a b := by
  cases c with
  | search =>
    exact congrArg (fun u => (State.setOutcome u s.temps.res).retire)
      (apply_ite (State.withSticky a b) _ (s.setPresence s.temps.p) s).symm
  | nothing | presence | data | crc _ => rfl

/-- Wherever a command has got to, it ends alike whatever the sticky bits are, and leaves them. -/
theorem finish_withSticky (a b : Bool) (s : State) (p : Program) :
    (s.withSticky a b).finish p = (s.finish p).withSticky a b := by
  have hrun : runOps p.ops (s.withSticky a b) = (runOps p.ops s).withSticky a b :=
    runOps_commute (State.withSticky a b) p.ops (fun _ => rfl) (fun op _ u => doOp_withSticky a b u op) s
  simp only [State.finish, hrun, complete_withSticky]

/-- Settles O22: of the state the write changes only the sticky bits, which the command does not see. -/
theorem hostWriteCannotDisturbACommand : Obligations.HostWriteCannotDisturbACommand := by
  intro s p r v hbusy
  obtain ⟨ovr, ill, hwrite⟩ : ∃ ovr ill, s.hostWriteReg r v = s.withSticky ovr ill :=
    ⟨_, _, hostWriteReg_busy s r v hbusy⟩
  rw [hwrite]
  exact ⟨finish_withSticky ovr ill s p, hbusy⟩

end Sys2Proof.Machine
end

section
/-! The transactor's commands of slots and of bytes (O25 to O30): a byte's slots told by their events, and the loops of
`WriteByte`, `ReadByte` and `TouchByte` over the bits (41_transactor.md R124 to R135). -/

namespace Sys2Proof.Machine

open Sys2Proof

/-! ## The end of a command -/

/-- A command ends in the completion of the state its elements run to. -/
theorem exec_of_runOps {i : Instr} {s u : State} (hwf : i.wf s.params.blockMax = true)
    (hrun : runOps (programOf i s).ops { s with temps := Temps.fresh } = u) :
    exec i s = .next (u.complete (programOf i s).result) := by
  rw [exec_wf hwf, State.finish, hrun]

theorem complete_nothing_idleAs (s : State) : (s.complete .nothing).IdleAs s := ⟨rfl, rfl⟩

theorem complete_presence_idleAs (s : State) : (s.complete .presence).IdleAs { s with presence := s.temps.p } :=
  ⟨rfl, rfl⟩

theorem complete_data_idleAs (s : State) : (s.complete .data).IdleAs { s with data := s.temps.byte } := ⟨rfl, rfl⟩

/-- What a command ends in is told up to what the sequencer keeps for itself. -/
theorem State.IdleAs.of_quiet {t x y : State} (h : t.IdleAs x) (hxy : x.quiet = y.quiet) : t.IdleAs y :=
  ⟨h.1, h.2.trans hxy⟩

/-! ## The commands of one slot -/

/-- Settles O25: the command is `ResetPresence()`, and its completion writes PRESENCE. -/
theorem owResetResult : Obligations.OwResetResult := by
  refine ⟨fun _ _ hop => decode_of_fields (i := .owReset) hop trivial rfl, fun s => ?_⟩
  have hrun := runOps_resetPresence { s with temps := Temps.fresh } rfl
  refine ⟨_, exec_of_runOps (i := .owReset) rfl hrun, (complete_presence_idleAs _).of_quiet ?_⟩
  simp [State.putSample, State.quiet, resetPresence_state, resetPresence_level, dropLevel_temps]

/-- Settles O26: the command is `WriteBit(bit)`. -/
theorem owWriteBitResult : Obligations.OwWriteBitResult := by
  refine ⟨fun _ _ hop => decode_of_fields (i := .owWriteBit _) hop rfl rfl, fun s bit => ?_⟩
  have hrun := runOps_writeBit { s with temps := Temps.fresh } bit rfl
  refine ⟨_, exec_of_runOps (i := .owWriteBit bit) rfl hrun, (complete_nothing_idleAs _).of_quiet ?_⟩
  rw [writeBit_effect]
  rfl

/-- Settles O27: the command is `ReadBit()` into bit 0 of a cleared byte, which its completion writes to DATA. -/
theorem owReadBitResult : Obligations.OwReadBitResult := by
  refine ⟨fun _ _ hop => decode_of_fields (i := .owReadBit) hop trivial rfl, fun s => ?_⟩
  have hrun := runOps_readBit { s with temps := Temps.fresh } (.byteBit 0) rfl
  have hbit (b : Bool) : setBit (0#8) 0 b = if b then 0x01 else 0x00 := by cases b <;> rfl
  refine ⟨_, exec_of_runOps (i := .owReadBit) rfl hrun, (complete_data_idleAs _).of_quiet ?_⟩
  simp [State.putSample, State.quiet, readBit_state, readBit_level, dropLevel_temps, Temps.fresh, hbit]

/-! ## Sequences of slots -/

/-- The state after some slots: their events in the trace, the line released, and the counters as the last slot's wait
left them. -/
def State.afterSlots (s : State) (events : List LineEvent) (wait : Nat) : State :=
  { s with
    line := false, trace := events.reverse ++ s.trace, waitLeft := wait, gap := s.params.eventLatency }

@[simp] theorem State.afterSlots_params (s : State) (es : List LineEvent) (w : Nat) :
    (s.afterSlots es w).params = s.params := rfl

@[simp] theorem State.afterSlots_nextLevel (s : State) (es : List LineEvent) (w : Nat) :
    (s.afterSlots es w).nextLevel = s.nextLevel := rfl

@[simp] theorem State.afterSlots_afterSlots (s : State) (a b : List LineEvent) (w w' : Nat) :
    (s.afterSlots a w).afterSlots b w' = s.afterSlots (a ++ b) w' := by
  simp [State.afterSlots]

@[simp] theorem State.dropLevel_afterSlots (s : State) (a : List LineEvent) (w : Nat) :
    (s.afterSlots a w).dropLevel = s.dropLevel.afterSlots a w := by
  cases hlevels : s.levels <;> simp [State.dropLevel, State.afterSlots, hlevels]

theorem writeBit_afterSlots (b : Bool) (s : State) :
    ∃ w, Pseudo.writeBit b s = s.afterSlots (writeEvents s.params.profile b) w :=
  ⟨_, writeBit_effect b s⟩

theorem readBit_afterSlots (s : State) :
    (Pseudo.readBit s).2 = s.dropLevel.afterSlots (readEvents s.params.profile s.nextLevel)
      (s.params.profile.tF.toNat / 4 * s.params.cyclesPerUs) := by
  rw [readBit_state, dropLevel_changes s]
  rfl

/-! ## Writing a byte -/

/-- Write slots after other slots add their events. -/
theorem writeFold_afterSlots (v : Byte) (l : List Nat) (s : State) (es : List LineEvent) (w : Nat) :
    ∃ w', l.foldl (fun s i => Pseudo.writeBit (v.getLsbD i) s) (s.afterSlots es w) =
      s.afterSlots (es ++ (l.map v.getLsbD).flatMap (writeEvents s.params.profile)) w' := by
  induction l generalizing es w with
  | nil => exact ⟨w, by simp⟩
  | cons i rest ih =>
    obtain ⟨w₁, hslot⟩ := writeBit_afterSlots (v.getLsbD i) (s.afterSlots es w)
    obtain ⟨w₂, hrest⟩ := ih (es ++ writeEvents s.params.profile (v.getLsbD i)) w₁
    refine ⟨w₂, ?_⟩
    simpa [hslot] using hrest

/-- `WriteByte(v)` performs a write slot for each bit, least significant first (41_transactor.md R127). -/
theorem writeByte_afterSlots (v : Byte) (s : State) :
    ∃ w, Pseudo.writeByte v s = s.afterSlots ((wireBits v).flatMap (writeEvents s.params.profile)) w := by
  obtain ⟨w₁, hfirst⟩ := writeBit_afterSlots (v.getLsbD 0) s
  obtain ⟨w₂, hrest⟩ := writeFold_afterSlots v (List.range' 1 7) s _ w₁
  rw [← hfirst] at hrest
  exact ⟨w₂, hrest⟩

/-- Settles O28: the command is `WriteByte(v)`. -/
theorem owWriteByteResult : Obligations.OwWriteByteResult := by
  refine ⟨fun _ _ hop => decode_of_fields (i := .owWriteByte _) hop rfl rfl, fun s v => ?_⟩
  have hrun := runOps_writeByte { s with temps := Temps.fresh } v rfl
  obtain ⟨w, hslots⟩ := writeByte_afterSlots v { s with temps := Temps.fresh }
  refine ⟨_, exec_of_runOps (i := .owWriteByte v) rfl hrun, (complete_nothing_idleAs _).of_quiet ?_⟩
  rw [hslots]
  rfl

/-! ## Touching a byte -/

theorem touchBit_line (v : Byte) (x : Byte × State) (i : Nat) : (Pseudo.touchBit v x i).2.line = false := by
  unfold Pseudo.touchBit
  split
  · simp [readBit_state]
  · simp [writeBit_effect]

theorem touchByte_line (v : Byte) (s : State) : (Pseudo.touchByte v s).2.line = false := by
  rw [Pseudo.touchByte, List.range_succ, List.foldl_concat]
  exact touchBit_line v _ _

/-- A touch ends in the byte sampled and the state of the pseudocode. -/
theorem exec_owTouchByte (v : Byte) (s : State) :
    ∃ t, exec (.owTouchByte v) s = .next t
      ∧ t.IdleAs { (Pseudo.touchByte v s).2 with data := (Pseudo.touchByte v s).1 } := by
  have hrun := runOps_touchByte { s with temps := Temps.fresh } v rfl
  refine ⟨_, exec_of_runOps (i := .owTouchByte v) rfl hrun, (complete_data_idleAs _).of_quiet ?_⟩
  rw [touchByte_temps]
  rfl

theorem exec_owReadByte_eq_touch (s : State) : exec .owReadByte s = exec (.owTouchByte 0xFF) s := by
  simp only [exec, execOwReadByte, execOwTouchByte, owReadByteProgram, owTouchByteProgram, readByteOps_touch]

/-- Setting bit `i` sets that bit and no other. -/
theorem getLsbD_setBit {w : Nat} (v : BitVec w) (i j : Nat) (b : Bool) :
    (setBit v i b).getLsbD j = if j = i ∧ i < w then b else v.getLsbD j := by
  have hmask : (1#w <<< i).getLsbD j = (decide (i < w) && decide (i = j)) := by
    rw [← BitVec.twoPow_eq, BitVec.getLsbD_twoPow]
  cases b with
  | true => simp only [setBit, if_true, BitVec.getLsbD_or, hmask]; grind
  | false => simp only [setBit, Bool.false_eq_true, if_false, BitVec.getLsbD_and, BitVec.getLsbD_not, hmask]; grind

/-- A bit not sent as 1 is not sampled, so it stays 0 (41_transactor.md R129). -/
theorem touchFold_subset (v : Byte) (l : List Nat) (x : Byte × State)
    (hx : ∀ j, x.1.getLsbD j = true → v.getLsbD j = true) (j : Nat)
    (hj : (l.foldl (Pseudo.touchBit v) x).1.getLsbD j = true) : v.getLsbD j = true := by
  induction l generalizing x with
  | nil => exact hx j hj
  | cons i rest ih =>
    refine ih (Pseudo.touchBit v x i) (fun k hk => ?_) hj
    unfold Pseudo.touchBit at hk
    split at hk
    · rw [getLsbD_setBit] at hk
      grind
    · exact hx k hk

theorem touchByte_subset (v : Byte) (s : State) : (Pseudo.touchByte v s).1 &&& ~~~v = 0x00 := by
  apply BitVec.eq_of_getLsbD_eq
  intro j hj
  have hbit := touchFold_subset v (List.range 8) (0, s) (by simp) j
  simp only [BitVec.getLsbD_and, BitVec.getLsbD_not, hj, Pseudo.touchByte]
  grind

theorem touchBit_traceLength (v : Byte) (x : Byte × State) (i : Nat) :
    (Pseudo.touchBit v x i).2.trace.length = (if v.getLsbD i then 6 else 4) + x.2.trace.length := by
  unfold Pseudo.touchBit
  split
  · simp only [readBit_state, List.length_append, List.length_reverse]
    rfl
  · simp only [writeBit_effect, List.length_append, List.length_reverse]
    rfl

/-- Six events for a bit sent as 1, four for a bit sent as 0. -/
theorem touchFold_traceLength (v : Byte) (l : List Nat) (x : Byte × State) :
    (l.foldl (Pseudo.touchBit v) x).2.trace.length =
      6 * l.countP v.getLsbD + 4 * (l.length - l.countP v.getLsbD) + x.2.trace.length := by
  induction l generalizing x with
  | nil => simp
  | cons i rest ih =>
    have hle := rest.countP_le_length (p := v.getLsbD)
    rw [List.foldl_cons, ih, touchBit_traceLength, List.countP_cons, List.length_cons]
    split <;> omega

theorem ones_eq_countP (v : Byte) : ones v = (List.range 8).countP v.getLsbD := by
  rw [ones, wireBits, List.countP_map]
  rfl

/-- Settles O30: the elements run as `TouchByte`, and the claims about it are told of its loop over the bits. -/
theorem owTouchByteResult : Obligations.OwTouchByteResult := by
  refine ⟨fun _ _ hop => decode_of_fields (i := .owTouchByte _) hop rfl rfl,
    fun s => (exec_owReadByte_eq_touch s).symm, fun s v => ?_⟩
  obtain ⟨t, hexec, hidle⟩ := exec_owTouchByte v s
  refine ⟨t, hexec, hidle, touchByte_subset v s, touchByte_line v s, ?_⟩
  rw [ones_eq_countP]
  exact touchFold_traceLength v (List.range 8) (0, s)

/-! ## Reading a byte -/

/-- A slot of a touch of 0xFF is a read slot. -/
theorem touchBit_ff {i : Nat} (hi : i < 8) (r : Byte) (s : State) :
    Pseudo.touchBit 0xFF (r, s) i = (setBit r i s.nextLevel,
      s.dropLevel.afterSlots (readEvents s.params.profile s.nextLevel)
        (s.params.profile.tF.toNat / 4 * s.params.cyclesPerUs)) := by
  have hsent : (0xFF : Byte).getLsbD i = true := by
    rw [show (0xFF : Byte) = BitVec.allOnes 8 from rfl, BitVec.getLsbD_allOnes, decide_eq_true hi]
  simp only [Pseudo.touchBit, if_pos hsent, readBit_level, readBit_afterSlots]

/-- Read slots after other slots, for the bits from `k` up: they put the coming levels there, leave the bits below, and
add their events. -/
theorem readFold_afterSlots (n k : Nat) (hk : k + n ≤ 8) (r : Byte) (s : State) (es : List LineEvent) (w : Nat) :
    ∃ r' w', (List.range' k n).foldl (Pseudo.touchBit 0xFF) (r, s.afterSlots es w) =
        (r', (s.afterLevels n).afterSlots (es ++ (s.coming n).flatMap (readEvents s.params.profile)) w')
      ∧ (List.range' k n).map r'.getLsbD = s.coming n ∧ ∀ j < k, r'.getLsbD j = r.getLsbD j := by
  induction n generalizing k r s es w with
  | zero => exact ⟨r, w, by simp [State.coming, State.afterLevels], rfl, fun _ _ => rfl⟩
  | succ n ih =>
    obtain ⟨r', w', hrest, hbits, hbelow⟩ := ih (k + 1) (by omega) (setBit r k s.nextLevel) s.dropLevel
      (es ++ readEvents s.params.profile s.nextLevel) (s.params.profile.tF.toNat / 4 * s.params.cyclesPerUs)
    refine ⟨r', w', ?_, ?_, fun j hj => ?_⟩
    · rw [List.range'_succ, List.foldl_cons, touchBit_ff (by omega)]
      simpa [State.coming, State.afterLevels] using hrest
    · rw [List.range'_succ, List.map_cons, hbits, hbelow k (by omega), getLsbD_setBit, if_pos (by omega), State.coming]
    · rw [hbelow j (by omega), getLsbD_setBit, if_neg (by omega)]

/-- `ReadByte()` is a read slot for each bit, least significant first (41_transactor.md R128). -/
theorem readByte_afterSlots (s : State) :
    ∃ r w, Pseudo.touchByte 0xFF s =
        (r, (s.afterLevels 8).afterSlots ((s.coming 8).flatMap (readEvents s.params.profile)) w)
      ∧ wireBits r = s.coming 8 := by
  have hstart : Pseudo.touchByte 0xFF s =
      (List.range' 0 8).foldl (Pseudo.touchBit 0xFF) (0, s.afterSlots [] 0) := by
    rw [Pseudo.touchByte, List.range_eq_range', List.range'_succ, List.foldl_cons, List.foldl_cons,
      touchBit_ff (by decide), touchBit_ff (by decide)]
    simp
  obtain ⟨r, w, hfold, hbits, -⟩ := readFold_afterSlots 8 0 (by decide) 0 s [] 0
  rw [← List.range_eq_range'] at hbits
  exact ⟨r, w, hstart.trans hfold, hbits⟩

theorem afterLevels_trace (n : Nat) (s : State) : (s.afterLevels n).trace = s.trace := by
  induction n generalizing s with
  | zero => rfl
  | succ n ih => exact (ih s.dropLevel).trans s.dropLevel_trace

/-- Settles O29: the command is a touch of 0xFF, each of whose slots reads. -/
theorem owReadByteResult : Obligations.OwReadByteResult := by
  refine ⟨fun _ _ hop => decode_of_fields (i := .owReadByte) hop trivial rfl, fun s => ?_⟩
  obtain ⟨t, hexec, hidle⟩ := exec_owTouchByte 0xFF s
  obtain ⟨r, w, htouch, hbits⟩ := readByte_afterSlots s
  rw [htouch] at hidle
  refine ⟨r, hbits, t, (exec_owReadByte_eq_touch s).trans hexec, hidle.of_quiet ?_⟩
  simp [State.afterSlots, State.quiet, afterLevels_trace]

end Sys2Proof.Machine
end

section
/-! What the commands but the searches leave alone (O31, O34, O35): their elements neither read nor write the search
state, and store to BUF only the bytes touched (41_transactor.md R136, R137). -/

namespace Sys2Proof.Machine

open Sys2Proof

/-! ## Elements of the commands but the searches -/

/-- A line event or a move of the byte temporary, which stores only to bytes of BUF below `n`. -/
def Op.plainBelow (n : Nat) : Op → Bool
  | .drive | .release | .delay _ | .sample _ | .act .clearByte => true
  | .act (.storeByte k) => decide (k < n)
  | .delayDir _ _ | .act .resetSearch | .act .passBegin | .act .presenceCheck | .act .loopBegin | .act .direction
  | .act .advance | .act .passEnd => false

theorem plain_writeBitOps (n : Nat) (p : Profile) (b : Bool) : (writeBitOps p b).all (Op.plainBelow n) = true := by
  cases b <;> rfl

theorem plain_touchBitOps (n : Nat) (p : Profile) (v : Byte) (i : Nat) :
    (touchBitOps p v i).all (Op.plainBelow n) = true := by
  unfold touchBitOps
  split <;> rfl

theorem plain_writeByteOps (n : Nat) (p : Profile) (v : Byte) :
    (writeByteOps p v).all (Op.plainBelow n) = true := by
  simp only [writeByteOps, List.all_flatMap, plain_writeBitOps, List.all_eq_true, implies_true]

theorem plain_touchByteOps (n : Nat) (p : Profile) (v : Byte) :
    (touchByteOps p v).all (Op.plainBelow n) = true := by
  simp only [touchByteOps, List.all_cons, Op.plainBelow, Bool.true_and, List.all_flatMap, plain_touchBitOps,
    List.all_eq_true, implies_true]

theorem plain_touchBufOps (n : Nat) (p : Profile) (k : Nat) (bytes : List Byte) (h : k + bytes.length ≤ n) :
    (touchBufOps p k bytes).all (Op.plainBelow n) = true := by
  induction bytes generalizing k with
  | nil => rfl
  | cons v rest ih =>
    have hrest := ih (k + 1) (by simp only [List.length_cons] at h; omega)
    have hk : k < n := by simp only [List.length_cons] at h; omega
    simp only [touchBufOps, List.all_append, plain_touchByteOps, List.all_cons, Op.plainBelow, hk, hrest, decide_true,
      Bool.and_self]

/-- Every command but the searches is made of such elements. -/
theorem plain_programOf {i : Instr} (s : State) (hfirst : i ≠ .owSearchFirst) (hnext : i ≠ .owSearchNext) :
    (programOf i s).ops.all (Op.plainBelow (storedBytes i)) = true := by
  cases i with
  | owReset | owReadBit | crc8Update _ | delay _ => rfl
  | owWriteBit bit => exact plain_writeBitOps _ _ bit
  | owWriteByte v => exact plain_writeByteOps _ _ v
  | owReadByte =>
    simp only [programOf, owReadByteProgram, readByteOps_touch]
    exact plain_touchByteOps _ _ 0xFF
  | owTouchByte v => exact plain_touchByteOps _ _ v
  | owBlockTouch len => exact plain_touchBufOps _ _ 0 _ (by simp [storedBytes])
  | owSearchFirst => exact absurd rfl hfirst
  | owSearchNext => exact absurd rfl hnext

/-! ## The search state of another block -/

/-- `s` with the search state, CRC, FOUND and SRES of `u` (41_transactor.md R137). -/
def State.withSearchOf (s u : State) : State :=
  { s with
    lastDisc := u.lastDisc, lastDevFlag := u.lastDevFlag, lastFamDisc := u.lastFamDisc, rom := u.rom, crc := u.crc
    found := u.found, sres := u.sres }

theorem dropLevel_withSearchOf (s u : State) : (s.withSearchOf u).dropLevel = s.dropLevel.withSearchOf u := by
  cases hlevels : s.levels <;> simp [State.dropLevel, State.withSearchOf, hlevels]

theorem sample_withSearchOf (s u : State) (d : Dest) : (s.withSearchOf u).sample d = (s.sample d).withSearchOf u := by
  have hanswered : (s.withSearchOf u).answered = s.answered.withSearchOf u := by
    simp only [State.answered, dropLevel_withSearchOf, apply_ite (State.withSearchOf · u)]
    rfl
  simp only [State.sample, hanswered]
  cases d <;> rfl

theorem doOp_withSearchOf (s u : State) {n : Nat} {op : Op} (h : op.plainBelow n = true) :
    (s.withSearchOf u).doOp op = (s.doOp op).withSearchOf u := by
  cases op with
  | drive | release | delay _ => rfl
  | delayDir _ _ => cases h
  | sample d => exact sample_withSearchOf s u d
  | act a =>
    cases a with
    | clearByte | storeByte _ => rfl
    | resetSearch | passBegin | presenceCheck | loopBegin | direction | advance | passEnd => cases h

theorem runOps_withSearchOf (s u : State) {n : Nat} {ops : List Op} (h : ops.all (Op.plainBelow n) = true) :
    runOps ops (s.withSearchOf u) = (runOps ops s).withSearchOf u :=
  runOps_commute (State.withSearchOf · u) ops (fun _ => rfl)
    (fun op hop x => doOp_withSearchOf x u (List.all_eq_true.1 h op hop)) s

/-- Such elements leave the search state and CRC: they run alike with the block's own. -/
theorem runOps_searchState (s : State) {n : Nat} {ops : List Op} (h : ops.all (Op.plainBelow n) = true) :
    (runOps ops s).lastDisc = s.lastDisc ∧ (runOps ops s).lastDevFlag = s.lastDevFlag
      ∧ (runOps ops s).lastFamDisc = s.lastFamDisc ∧ (runOps ops s).rom = s.rom ∧ (runOps ops s).crc = s.crc := by
  have hown : runOps ops s = (runOps ops s).withSearchOf s := runOps_withSearchOf s s h
  rw [hown]
  exact ⟨rfl, rfl, rfl, rfl, rfl⟩

theorem complete_withSearchOf (s u x : State) {i : Instr} (hi : isTransactor i = true) :
    (s.withSearchOf u).complete (programOf i x).result = (s.complete (programOf i x).result).withSearchOf u := by
  cases i with
  | owReset | owWriteBit _ | owReadBit | owWriteByte _ | owReadByte | owTouchByte _ | owBlockTouch _ => rfl
  | owSearchFirst | owSearchNext | crc8Update _ | delay _ => cases hi

theorem finish_withSearchOf (s u x : State) {i : Instr} (hi : isTransactor i = true) :
    (s.withSearchOf u).finish (programOf i x) = (s.finish (programOf i x)).withSearchOf u := by
  have hplain := plain_programOf (i := i) x (by rintro rfl; cases hi) (by rintro rfl; cases hi)
  rw [State.finish, runOps_withSearchOf s u hplain, complete_withSearchOf _ u x hi, State.finish]

theorem programOf_withSearchOf (s u : State) {i : Instr} : programOf i (s.withSearchOf u) = programOf i s := by
  cases i <;> rfl

/-- A command of the transactor does the same whatever search state stands in the block. -/
theorem exec_withSearchOf {i : Instr} {s t : State} (u : State) (hi : isTransactor i = true)
    (h : exec i s = .next t) : exec i (s.withSearchOf u) = .next (t.withSearchOf u) := by
  cases hwf : i.wf s.params.blockMax with
  | true =>
    rw [exec_wf hwf] at h
    cases h
    rw [exec_wf (s := s.withSearchOf u) hwf, programOf_withSearchOf]
    exact congrArg _ (finish_withSearchOf { s with temps := Temps.fresh } u s hi)
  | false =>
    rw [exec_not_wf hwf] at h
    cases h
    exact exec_not_wf (s := s.withSearchOf u) hwf

/-- Settles O34: the command runs alike with any search state, and so with its own, which it therefore leaves. -/
theorem transactorApartFromSearchState : Obligations.TransactorApartFromSearchState := by
  intro i s t hi hexec
  have hown : t = t.withSearchOf s := by
    have hagain : exec i s = .next (t.withSearchOf s) := exec_withSearchOf s hi hexec
    rw [hexec] at hagain
    exact Host.Outcome.next.inj hagain
  refine ⟨by rw [hown]; exact ⟨rfl, rfl, rfl, rfl, rfl, rfl, rfl⟩, fun a b c rom crc found sres => ?_⟩
  exact exec_withSearchOf { s with
    lastDisc := a, lastDevFlag := b, lastFamDisc := c, rom := rom, crc := crc, found := found, sres := sres } hi hexec

/-! ## The frame -/

theorem doOp_bufByte (s : State) {n k : Nat} {op : Op} (h : op.plainBelow n = true) (hk : n ≤ k) :
    (s.doOp op).bufByte k = s.bufByte k := by
  cases op with
  | drive | release | delay _ => rfl
  | delayDir _ _ => cases h
  | sample d => simp only [State.bufByte, State.doOp, State.sample_buf]
  | act a =>
    cases a with
    | clearByte => rfl
    | storeByte j =>
      have hj : j < n := of_decide_eq_true h
      exact bufByte_setBufByte_other s j k _ (by omega)
    | resetSearch | passBegin | presenceCheck | loopBegin | direction | advance | passEnd => cases h

theorem runOps_bufByte (s : State) {n k : Nat} {ops : List Op} (h : ops.all (Op.plainBelow n) = true) (hk : n ≤ k) :
    (runOps ops s).bufByte k = s.bufByte k := by
  induction ops generalizing s with
  | nil => rfl
  | cons op rest ih =>
    obtain ⟨hop, hrest⟩ := by simpa only [List.all_cons, Bool.and_eq_true] using h
    unfold runOps
    split
    · rfl
    · exact (ih _ hrest).trans (doOp_bufByte s hop hk)

/-- What the completion of a command but the searches writes beside BUSY: one register at most. -/
theorem complete_programOf_frame (s x : State) {i : Instr} (hfirst : i ≠ .owSearchFirst)
    (hnext : i ≠ .owSearchNext) :
    let t := s.complete (programOf i x).result
    t.found = s.found ∧ t.sres = s.sres ∧ (i ≠ .owReset → t.presence = s.presence)
      ∧ (writesData i = false → t.data = s.data) ∧ ((∀ b, i ≠ .crc8Update b) → t.crc = s.crc) := by
  cases i with
  | owReset => exact ⟨rfl, rfl, fun h => absurd rfl h, fun _ => rfl, fun _ => rfl⟩
  | owReadBit | owReadByte | owTouchByte _ => exact ⟨rfl, rfl, fun _ => rfl, (by intro h; cases h), fun _ => rfl⟩
  | crc8Update b => exact ⟨rfl, rfl, fun _ => rfl, fun _ => rfl, fun h => absurd rfl (h b)⟩
  | owWriteBit _ | owWriteByte _ | owBlockTouch _ | delay _ =>
    exact ⟨rfl, rfl, fun _ => rfl, fun _ => rfl, fun _ => rfl⟩
  | owSearchFirst => exact absurd rfl hfirst
  | owSearchNext => exact absurd rfl hnext

/-- Settles O35: the elements leave the search state and the bytes of BUF past those stored, and the completion writes
one register at most. -/
theorem commandFrame : Obligations.CommandFrame := by
  intro i s t hwf hfirst hnext hexec
  rw [exec_wf hwf] at hexec
  cases hexec
  have hplain := plain_programOf s hfirst hnext
  obtain ⟨hparams, hovr, hill, hcur, -, hreset, hinputs, hreplies, -⟩ :=
    finish_frame { s with temps := Temps.fresh } (programOf i s)
  have hrun := runOps_same (programOf i s).ops { s with temps := Temps.fresh }
  obtain ⟨hdisc, hflag, hfam, hrom, hrunCrc⟩ := runOps_searchState { s with temps := Temps.fresh } hplain
  have hdone := complete_same (runOps (programOf i s).ops { s with temps := Temps.fresh }) (programOf i s).result
  obtain ⟨hfound, hsres, hpresence, hdata, hcrc⟩ :=
    complete_programOf_frame (runOps (programOf i s).ops { s with temps := Temps.fresh }) s hfirst hnext
  refine ⟨hparams, hfound.trans hrun.found, hsres.trans hrun.sres, hovr, hill,
    hdone.lastDisc.trans hdisc, hdone.lastDevFlag.trans hflag, hdone.lastFamDisc.trans hfam, hdone.rom.trans hrom,
    hcur, hreset, hinputs, hreplies, fun h => (hpresence h).trans hrun.presence, fun h => (hdata h).trans hrun.data,
    fun h => (hcrc h).trans hrunCrc, fun k hk => ?_⟩
  have hbuf := runOps_bufByte { s with temps := Temps.fresh } hplain hk
  rw [State.bufByte, State.finish, hdone.buf]
  exact hbuf

/-! ## OW_BLOCK_TOUCH -/

/-- The block touch is R136's loop over the bytes of BUF. -/
theorem exec_owBlockTouch {s : State} {len : Byte} (hbuf : Memory.wf s = true)
    (hlen : len.toNat ≤ s.params.blockMax) :
    ∃ t, exec (.owBlockTouch len) s = .next t ∧ t.IdleAs (Pseudo.blockTouch len.toNat 0 s) := by
  have hwhole : s.buf.length = s.params.blockMax := of_decide_eq_true hbuf
  have hcount : (s.buf.take len.toNat).length = len.toNat := by rw [List.length_take]; omega
  have hbytes (j : Nat) (hj : j < (s.buf.take len.toNat).length) :
      s.bufByte (0 + j) = (s.buf.take len.toNat)[j]? := by
    rw [Nat.zero_add, List.getElem?_take_of_lt (hcount ▸ hj), State.bufByte]
  obtain ⟨b, hrun⟩ := runOps_touchBuf s.params.profile (s.buf.take len.toNat) 0 { s with temps := Temps.fresh }
    rfl rfl hbytes
  refine ⟨_, exec_of_runOps (i := .owBlockTouch len) (decide_eq_true hlen) hrun,
    (complete_nothing_idleAs _).of_quiet ?_⟩
  rw [blockTouch_temps, hcount]
  rfl

/-- Settles O31: the loop of R136 and the command's frame; a longer block is an illegal word. -/
theorem owBlockTouchResult : Obligations.OwBlockTouchResult := by
  refine ⟨fun bm w hop => ?_, fun s len hbuf hlen => ?_, fun s w rest hreset hidle hop hlong hinputs => ?_⟩
  · split
    next hlen => exact decode_of_fields (i := .owBlockTouch _) hop rfl (decide_eq_true hlen)
    next hlong =>
      rw [decode_of_illegal ((legal_eq_false_iff bm w).2 (.inr (.inr ⟨hop, by omega⟩))), illegality, if_pos hop]
  · obtain ⟨t, hexec, hidle⟩ := exec_owBlockTouch hbuf hlen
    obtain ⟨-, -, -, -, -, -, -, -, -, -, -, -, -, -, hdata, -, hbytes⟩ :=
      commandFrame (.owBlockTouch len) s t (decide_eq_true hlen) nofun nofun hexec
    exact ⟨t, hexec, hidle, hdata rfl, hbytes⟩
  · have hillegal := (legal_eq_false_iff s.params.blockMax w).2 (.inr (.inr ⟨hop, hlong⟩))
    exact (cmdWriteIsHandledAtOnce s w rest hreset hinputs).2.1 hidle hillegal

end Sys2Proof.Machine
end

section
/-! The search commands as the pass of R162 (O36 to O41): their elements run as the pseudocode, whatever the bus answers,
and the completion is that of R172; and the passes that end early. -/

namespace Sys2Proof.Machine

open Sys2Proof

/-! ## The elements of a pass run as the pseudocode -/

/-- `r` is where the elements of a pass end that the pseudocode answers with `x`: its outcome is in the temporaries. -/
def PassAnswers (r : State) (x : (Sres × Bool × Bool) × State) : Prop :=
  ∃ t : Temps, t.res = x.1.1 ∧ t.pSeen = x.1.2.1 ∧ t.p = x.1.2.2 ∧ r = { x.2 with temps := t }

/-- The completion of a search command is R172's. -/
theorem PassAnswers.complete {r : State} {x : (Sres × Bool × Bool) × State} (h : PassAnswers r x) :
    r.complete .search = (Pseudo.searchComplete x).retire := by
  obtain ⟨⟨res, pSeen, p⟩, u⟩ := x
  obtain ⟨t, rfl, rfl, rfl, rfl⟩ := h
  simp only [State.complete, State.writeSearchResult, Pseudo.searchComplete]
  split <;> rfl

theorem writeByte_params (v : Byte) (s : State) : (Pseudo.writeByte v s).params = s.params := by
  obtain ⟨w, hslots⟩ := writeByte_afterSlots v s
  rw [hslots, State.afterSlots_params]

/-- The temporaries of a pass that saw a device, before its loop. -/
def Temps.present : Temps := { Temps.fresh with p := true, pSeen := true }

/-- The temporaries of that pass as its loop begins (42_search.md R162 step 4). -/
def Temps.looping : Temps := { Temps.present with lastZero := 0, ok := true, n := 1 }

/-- A pass that saw a device: the byte 0xF0, the positions and steps 5 to 7. -/
theorem runOps_afterPresence (u : State) :
    let y := Pseudo.searchLoop 64 1 0 (Pseudo.writeByte 0xF0 u)
    let z := Pseudo.searchEnd y.1 y.2.1 y.2.2
    PassAnswers (runOps (writeByteOps u.params.profile 0xF0 ++
        (.act .loopBegin :: (positionsOps u.params.profile 64 ++ [.act .passEnd]))) { u with temps := .present })
      ((z.1, true, true), z.2) := by
  have hbyte := (runOps_writeByte { u with temps := .present } 0xF0 rfl).trans (writeByte_temps 0xF0 u .present)
  have hprofile := congrArg Params.profile (writeByte_params 0xF0 u)
  rw [runOps_append, hbyte, runOps_cons _ _ _ rfl]
  generalize Pseudo.writeByte 0xF0 u = v at hprofile ⊢
  have hloop := runOps_searchLoop u.params.profile 64 { v with temps := .looping } hprofile rfl rfl
  rw [searchLoop_temps 64 _ _ v .looping] at hloop
  obtain ⟨t, hp, hpSeen, -, hres, hrun⟩ := passEnds_temps hloop
  exact ⟨t, hres, hpSeen, hp, hrun⟩

/-- The elements of a pass run as `SearchPass()` (42_search.md R162). -/
theorem runOps_searchPass (s : State) (ht : s.temps = Temps.fresh) :
    PassAnswers (runOps (searchPassOps s.params.profile) s) (Pseudo.searchPass s) := by
  have hgo : s.temps.stop = false := by rw [ht]; rfl
  rw [searchPassOps, runOps_cons _ _ _ hgo, State.doOp, State.doAct, State.passBegin, Pseudo.searchPass]
  split
  case isTrue hexhausted =>
    rw [runOps_of_stop _ _ rfl]
    exact ⟨{ s.temps with res := .exhausted, stop := true }, rfl, by rw [ht]; rfl, by rw [ht]; rfl, rfl⟩
  case isFalse hgoes =>
    have hreset := runOps_resetPresence { s with crc := 0 } hgo
    have hparams : (Pseudo.resetPresence { s with crc := 0 }).2.params = s.params := by rw [resetPresence_state]
    have htemps : (Pseudo.resetPresence { s with crc := 0 }).2.temps = Temps.fresh := by rw [resetPresence_state, ht]
    rw [runOps_append, hreset]
    generalize Pseudo.resetPresence { s with crc := 0 } = x at *
    obtain ⟨p, v⟩ := x
    rw [State.putSample, Bool.not_not, htemps, runOps_cons _ _ _ rfl]
    cases p with
    | false =>
      rw [runOps_of_stop _ _ rfl]
      exact ⟨_, rfl, rfl, rfl, rfl⟩
    | true =>
      rw [← hparams]
      exact runOps_afterPresence v

theorem searchPass_temps (s : State) (t : Temps) :
    Pseudo.searchPass { s with temps := t } =
      ((Pseudo.searchPass s).1, { (Pseudo.searchPass s).2 with temps := t }) := by
  have hreset := resetPresence_temps { s with crc := 0 } t
  simp only [Pseudo.searchPass, hreset, writeByte_temps, searchLoop_temps, searchEnd_temps]
  split
  · rfl
  split <;> rfl

/-! ## The two commands -/

/-- OW_SEARCH_NEXT ends as the pass and its completion do (42_search.md R172, R174). -/
theorem exec_owSearchNext (s : State) :
    exec .owSearchNext s = .next (Pseudo.searchComplete (Pseudo.searchPass s)).retire := by
  have hpass := (runOps_searchPass { s with temps := .fresh } rfl).complete
  rw [searchPass_temps s .fresh] at hpass
  exact (exec_wf rfl).trans (congrArg Host.Outcome.next hpass)

/-- OW_SEARCH_FIRST does the same after `ResetSearchState()` (42_search.md R161, R173). -/
theorem exec_owSearchFirst (s : State) :
    exec .owSearchFirst s = .next (Pseudo.searchComplete (Pseudo.searchPass s.resetSearch)).retire := by
  have hpass := (runOps_searchPass { s.resetSearch with temps := .fresh } rfl).complete
  rw [searchPass_temps s.resetSearch .fresh] at hpass
  refine (exec_wf rfl).trans (congrArg Host.Outcome.next ?_)
  rw [State.finish, programOf, owSearchFirstProgram, runOps_cons _ _ _ rfl]
  exact hpass

/-- The state a search command's pass begins in (42_search.md R173, R174). -/
def State.searchStart (i : Instr) (s : State) : State := if i = .owSearchFirst then s.resetSearch else s

theorem exec_search {i : Instr} (hi : i = .owSearchFirst ∨ i = .owSearchNext) (s : State) :
    exec i s = .next (Pseudo.searchComplete (Pseudo.searchPass (s.searchStart i))).retire := by
  rcases hi with rfl | rfl
  · exact exec_owSearchFirst s
  · exact exec_owSearchNext s

theorem searchStart_same (i : Instr) (s : State) : SameOutside s (s.searchStart i) := by
  unfold State.searchStart
  split
  · exact doOp_same s (.act .resetSearch)
  · exact .rfl s

theorem searchStart_buf (i : Instr) (s : State) : (s.searchStart i).buf = s.buf := by
  unfold State.searchStart
  split <;> rfl

theorem State.retire_idleAs (s : State) : s.retire.IdleAs s := ⟨rfl, rfl⟩

/-- Settles O37: the elements of the pass run as its pseudocode. -/
theorem searchNextIsThePass : Obligations.SearchNextIsThePass :=
  ⟨fun _ _ hop => decode_of_fields (i := .owSearchNext) hop trivial rfl,
    fun s => ⟨_, exec_owSearchNext s, State.retire_idleAs _⟩⟩

/-- Settles O38: the same pass, after the search state is reset. -/
theorem searchFirstIsThePassFromReset : Obligations.SearchFirstIsThePassFromReset :=
  ⟨fun _ _ hop => decode_of_fields (i := .owSearchFirst) hop trivial rfl,
    fun s => ⟨_, exec_owSearchFirst s, State.retire_idleAs _⟩⟩

/-! ## Where a pass can end -/

/-- Step 1 of a pass that goes on: `CRC <- 0x00` (42_search.md R162). -/
def State.clearCrc (s : State) : State := { s with crc := 0 }

@[simp] theorem State.clearCrc_params (s : State) : s.clearCrc.params = s.params := rfl

@[simp] theorem State.clearCrc_nextLevel (s : State) : s.clearCrc.nextLevel = s.nextLevel := rfl

@[simp] theorem State.dropLevel_clearCrc (s : State) : s.clearCrc.dropLevel = s.dropLevel.clearCrc := by
  cases hlevels : s.levels <;> simp [State.dropLevel, State.clearCrc, hlevels]

theorem resetPresence_afterSlots (s : State) :
    (Pseudo.resetPresence s).2 = s.dropLevel.afterSlots (resetEvents s.params.profile s.nextLevel)
      (s.params.profile.tJ.toNat / 4 * s.params.cyclesPerUs) := by
  rw [resetPresence_state, dropLevel_changes s]
  rfl

/-- The state in which the loop of step 4 begins, after the reset and the byte 0xF0 (42_search.md R162). -/
def State.atLoop (s : State) : State := Pseudo.writeByte 0xF0 (Pseudo.resetPresence s.clearCrc).2

theorem atLoop_afterSlots (s : State) :
    ∃ w, s.atLoop = s.dropLevel.clearCrc.afterSlots
      (resetEvents s.params.profile s.nextLevel ++ (wireBits 0xF0).flatMap (writeEvents s.params.profile)) w := by
  obtain ⟨w, hbyte⟩ := writeByte_afterSlots 0xF0 (Pseudo.resetPresence s.clearCrc).2
  refine ⟨w, hbyte.trans ?_⟩
  simp [resetPresence_afterSlots]

theorem searchPass_exhausted {s : State} (h : s.lastDevFlag = true) :
    Pseudo.searchPass s = ((.exhausted, false, false), s) := by
  rw [Pseudo.searchPass, if_pos h]

/-- A sample of 1 in the reset ends the pass (42_search.md R164). -/
theorem searchPass_absent {s : State} (hgoes : s.lastDevFlag = false) (hlevel : s.nextLevel = true) :
    Pseudo.searchPass s = ((.noPresence, true, false), (Pseudo.resetPresence s.clearCrc).2.resetSearch) := by
  have hp : (Pseudo.resetPresence s.clearCrc).1 = false := by
    rw [resetPresence_level, State.clearCrc_nextLevel, hlevel, Bool.not_true]
  rw [Pseudo.searchPass, if_neg (by rw [hgoes]; decide)]
  exact if_pos hp

/-- A sample of 0 in the reset takes the pass into its loop. -/
theorem searchPass_present {s : State} (hgoes : s.lastDevFlag = false) (hlevel : s.nextLevel = false) :
    Pseudo.searchPass s =
      let y := Pseudo.searchLoop 64 1 0 s.atLoop
      let z := Pseudo.searchEnd y.1 y.2.1 y.2.2
      ((z.1, true, true), z.2) := by
  have hp : (Pseudo.resetPresence s.clearCrc).1 ≠ false := by
    rw [resetPresence_level, State.clearCrc_nextLevel, hlevel]
    decide
  rw [Pseudo.searchPass, if_neg (by rw [hgoes]; decide)]
  exact if_neg hp

/-- Settles O39: step 1 ends the pass. -/
theorem exhaustedSearchChangesNothing : Obligations.ExhaustedSearchChangesNothing := by
  intro s hexhausted
  refine ⟨_, exec_owSearchNext s, ?_⟩
  rw [searchPass_exhausted hexhausted]
  exact State.retire_idleAs _

/-- Settles O40: step 2 ends the pass. -/
theorem searchWithoutPresence : Obligations.SearchWithoutPresence := by
  intro s hgoes hlevel
  refine ⟨_, exec_owSearchNext s, ?_⟩
  rw [searchPass_absent hgoes hlevel, resetPresence_afterSlots, State.dropLevel_clearCrc, State.clearCrc_params,
    State.clearCrc_nextLevel, hlevel]
  refine (State.retire_idleAs _).of_quiet ?_
  simp [Pseudo.searchComplete, State.resetSearch, State.afterSlots, State.clearCrc, State.quiet]

/-! ## Listed answers -/

theorem nextLevel_of_levels {s : State} {b : Bool} {rest : List Bool} (h : s.levels = b :: rest) :
    s.nextLevel = b := by
  rw [State.nextLevel, h]

theorem dropLevel_of_levels {s : State} {b : Bool} {rest : List Bool} (h : s.levels = b :: rest) :
    s.dropLevel = { s with levels := rest } := by
  rw [State.dropLevel, h]

theorem atLoop_of_levels {s : State} {b : Bool} {rest : List Bool} (h : s.levels = b :: rest) :
    ∃ w, s.atLoop = ({ s with levels := rest } : State).clearCrc.afterSlots
      (resetEvents s.params.profile b ++ (wireBits 0xF0).flatMap (writeEvents s.params.profile)) w := by
  obtain ⟨w, hloop⟩ := atLoop_afterSlots s
  exact ⟨w, by rw [hloop, nextLevel_of_levels h, dropLevel_of_levels h]⟩

/-! ## One position of the loop -/

/-- The state after the two read slots of a position (42_search.md R162 step 4a). -/
def State.afterReads (s : State) : State :=
  s.dropLevel.dropLevel.afterSlots
    (readEvents s.params.profile s.nextLevel ++ readEvents s.params.profile s.dropLevel.nextLevel)
    (s.params.profile.tF.toNat / 4 * s.params.cyclesPerUs)

@[simp] theorem afterReads_params (s : State) : s.afterReads.params = s.params := by simp [State.afterReads]

@[simp] theorem afterReads_lastDisc (s : State) : s.afterReads.lastDisc = s.lastDisc := by
  simp [State.afterReads, State.afterSlots]

@[simp] theorem afterReads_rom (s : State) : s.afterReads.rom = s.rom := by
  simp [State.afterReads, State.afterSlots]

@[simp] theorem afterReads_crc (s : State) : s.afterReads.crc = s.crc := by
  simp [State.afterReads, State.afterSlots]

@[simp] theorem afterReads_buf (s : State) : s.afterReads.buf = s.buf := by
  simp [State.afterReads, State.afterSlots]

@[simp] theorem afterReads_trace (s : State) :
    s.afterReads.trace = (readEvents s.params.profile s.nextLevel
      ++ readEvents s.params.profile s.dropLevel.nextLevel).reverse ++ s.trace := by
  simp [State.afterReads, State.afterSlots]

/-- The rest of a position leaves BUF, LAST_DISC and the environment's answers. -/
theorem afterDecision_frame (n : Pos) (dir zero : Bool) (s : State) :
    (afterDecision n dir zero s).buf = s.buf ∧ (afterDecision n dir zero s).lastDisc = s.lastDisc
      ∧ (afterDecision n dir zero s).levels = s.levels
      ∧ (afterDecision n dir zero s).sampleDraws = s.sampleDraws := by
  simp only [afterDecision, writeBit_effect]
  split <;> exact ⟨rfl, rfl, rfl, rfl⟩

theorem afterDecision_buf (n : Pos) (dir zero : Bool) (s : State) : (afterDecision n dir zero s).buf = s.buf :=
  (afterDecision_frame n dir zero s).1

theorem afterDecision_lastDisc (n : Pos) (dir zero : Bool) (s : State) :
    (afterDecision n dir zero s).lastDisc = s.lastDisc := (afterDecision_frame n dir zero s).2.1

theorem afterDecision_levels (n : Pos) (dir zero : Bool) (s : State) :
    (afterDecision n dir zero s).levels = s.levels := (afterDecision_frame n dir zero s).2.2.1

theorem afterDecision_sampleDraws (n : Pos) (dir zero : Bool) (s : State) :
    (afterDecision n dir zero s).sampleDraws = s.sampleDraws := (afterDecision_frame n dir zero s).2.2.2

/-- A position's second read, and the state after its two read slots. -/
theorem readBit_readBit (s : State) : Pseudo.readBit (Pseudo.readBit s).2 = (s.dropLevel.nextLevel, s.afterReads) := by
  apply Prod.ext
  · simp [readBit_afterSlots, readBit_level]
  · simp [readBit_afterSlots, State.afterReads]

theorem decision_afterReads (id cmp : Bool) (n : Pos) (s : State) :
    decision id cmp n s.afterReads = decision id cmp n s := by
  simp only [decision, afterReads_lastDisc, afterReads_rom]

section Position

variable {n : Pos} {s : State} (left : Nat) (lz : Pos)

/-- No decision on the environment's next two answers: the loop ends (42_search.md R165). -/
theorem searchLoop_abort (h : decision s.nextLevel s.dropLevel.nextLevel n s = none) :
    Pseudo.searchLoop (left + 1) n lz s = (false, lz, s.afterReads) := by
  simp only [searchLoop_succ, readBit_readBit, readBit_level, decision_afterReads, h]

/-- A decision on them: the direction is written and the loop goes on (42_search.md R166 to R169). -/
theorem searchLoop_goOn {dir zero : Bool}
    (h : decision s.nextLevel s.dropLevel.nextLevel n s = some (dir, zero)) :
    Pseudo.searchLoop (left + 1) n lz s =
      Pseudo.searchLoop left (n + 1) (if zero then n else lz) (afterDecision n dir zero s.afterReads) := by
  simp only [searchLoop_succ, readBit_readBit, readBit_level, decision_afterReads, h]

end Position

/-- Two listed answers that a position reads. -/
theorem reads_of_levels {s : State} {a b : Bool} {rest : List Bool} (h : s.levels = a :: b :: rest) :
    s.nextLevel = a ∧ s.dropLevel.nextLevel = b
      ∧ ∃ w, s.afterReads = ({ s with levels := rest } : State).afterSlots
        (readEvents s.params.profile a ++ readEvents s.params.profile b) w := by
  have hid := nextLevel_of_levels h
  have hdrop := dropLevel_of_levels h
  have hcmp : s.dropLevel.nextLevel = b := by rw [hdrop]; rfl
  exact ⟨hid, hcmp, _, by rw [State.afterReads, hcmp, hid, hdrop]; rfl⟩

/-- Settles O41: the pass leaves its loop at the first position, and step 5 ends it. -/
theorem doubleOneAbortsThePass : Obligations.DoubleOneAbortsThePass := by
  intro s rest hgoes hlevels
  refine ⟨_, exec_owSearchNext s, ?_⟩
  obtain ⟨w, hloop⟩ := atLoop_of_levels hlevels
  obtain ⟨hid, hcmp, w', hreads⟩ := reads_of_levels (s := s.atLoop) (by rw [hloop]; rfl)
  have habort := searchLoop_abort (n := 1) (s := s.atLoop) 63 0 (by rw [hid, hcmp]; rfl)
  rw [searchPass_present hgoes (nextLevel_of_levels hlevels), habort, hreads, hloop]
  refine (State.retire_idleAs _).of_quiet ?_
  simp [Pseudo.searchComplete, Pseudo.searchEnd, State.resetSearch, State.afterSlots, State.clearCrc, State.quiet]

/-! ## What both commands leave alone -/

theorem searchPass_same (s : State) : SameOutside s (Pseudo.searchPass s).2 := by
  obtain ⟨t, -, -, -, hrun⟩ := runOps_searchPass { s with temps := .fresh } rfl
  have hsame := runOps_same (searchPassOps s.params.profile) { s with temps := .fresh }
  rw [hrun, searchPass_temps s .fresh] at hsame
  exact { hsame with }

theorem searchEnd_buf (ok : Bool) (lz : Pos) (s : State) : (Pseudo.searchEnd ok lz s).2.buf = s.buf := by
  simp only [Pseudo.searchEnd]
  split
  · rfl
  split
  · rfl
  split <;> rfl

theorem searchLoop_buf (left : Nat) (n lz : Pos) (s : State) : (Pseudo.searchLoop left n lz s).2.2.buf = s.buf := by
  induction left generalizing n lz s with
  | zero => rfl
  | succ left ih =>
    cases h : decision s.nextLevel s.dropLevel.nextLevel n s with
    | none => rw [searchLoop_abort left lz h, afterReads_buf]
    | some d => rw [searchLoop_goOn left lz h, ih, afterDecision_buf, afterReads_buf]

theorem searchPass_buf (s : State) : (Pseudo.searchPass s).2.buf = s.buf := by
  have hloop : s.atLoop.buf = s.buf := by
    obtain ⟨w, h⟩ := atLoop_afterSlots s
    simp [h, State.afterSlots, State.clearCrc]
  cases hgoes : s.lastDevFlag with
  | true => rw [searchPass_exhausted hgoes]
  | false =>
    cases hlevel : s.nextLevel with
    | true => simp [searchPass_absent hgoes hlevel, resetPresence_state, State.clearCrc]
    | false => rw [searchPass_present hgoes hlevel, searchEnd_buf, searchLoop_buf, hloop]

/-- Settles O36: the pass leaves them, and the completion writes only STATUS. -/
theorem searchFrame : Obligations.SearchFrame := by
  intro i s t hi hexec
  rw [exec_search hi] at hexec
  cases hexec
  have hsame := (searchStart_same i s).trans (searchPass_same (s.searchStart i))
  have hbuf : (Pseudo.searchPass (s.searchStart i)).2.buf = s.buf := (searchPass_buf _).trans (searchStart_buf i s)
  exact ⟨hsame.params, hsame.ovr, hsame.ill, hsame.data, hsame.cur, hsame.inReset, hsame.inputs, hsame.replies,
    fun k => congrArg (·[k]?) hbuf⟩

end Sys2Proof.Machine
end

section
/-! What the loop of a pass does, position by position (O43, O44, O45, O59): its events, the directions it writes to ROM,
and CRC as the fold of the bytes completed (42_search.md R162 to R171). -/

namespace Sys2Proof.Machine

open Sys2Proof

/-! ## The decision of a position -/

theorem decision_eq_none {id cmp : Bool} {n : Pos} {s : State} (h : decision id cmp n s = none) :
    id = true ∧ cmp = true := by
  cases id <;> cases cmp <;> simp [decision] at h ⊢

/-- A position goes on unless both reads gave 1, and reads that differ give the direction (42_search.md R165, R166). -/
theorem decision_eq_some {id cmp dir zero : Bool} {n : Pos} {s : State} (h : decision id cmp n s = some (dir, zero)) :
    (id && cmp) = false ∧ (id ≠ cmp → dir = id) := by
  cases id <;> cases cmp <;> simp [decision] at h ⊢
  · exact h.1
  · exact h.1

/-! ## The bytes of a ROM code -/

theorem getLsbD_romByte (rom : RomCode) (k j : Nat) (hj : j < 8) :
    (romByte rom k).getLsbD j = rom.getLsbD (8 * k + j) := by
  simp [romByte, hj]

/-- A bit past a byte is not of that byte. -/
theorem romByte_setBit_past (rom : RomCode) {j k : Nat} (b : Bool) (h : 8 * (j + 1) ≤ k) :
    romByte (setBit rom k b) j = romByte rom j := by
  apply BitVec.eq_of_getLsbD_eq
  intro m hm
  rw [getLsbD_romByte _ _ _ hm, getLsbD_romByte _ _ _ hm, getLsbD_setBit, if_neg (by omega)]

/-- CRC is the fold of the ROM bytes whose bits are all among the first `k` (42_search.md R169, R202). -/
def State.CrcFoldsTo (s : State) (k : Nat) : Prop := s.crc = crcFold 0 ((List.range (k / 8)).map (romByte s.rom))

theorem afterReads_crcFoldsTo {s : State} {k : Nat} : s.afterReads.CrcFoldsTo k ↔ s.CrcFoldsTo k := by
  rw [State.CrcFoldsTo, State.CrcFoldsTo, afterReads_crc, afterReads_rom]

/-- The rest of a position keeps that: it folds the byte whose last bit it writes. -/
theorem State.CrcFoldsTo.afterDecision {s : State} {k : Nat} (h : s.CrcFoldsTo k) {n : Pos} (hn : n.toNat = k + 1)
    (dir zero : Bool) : (afterDecision n dir zero s).CrcFoldsTo (k + 1) := by
  have hbelow : (List.range (k / 8)).map (romByte (setBit s.rom k dir)) = (List.range (k / 8)).map (romByte s.rom) :=
    List.map_congr_left fun j hj => romByte_setBit_past _ _ (by have := List.mem_range.1 hj; omega)
  unfold State.CrcFoldsTo at h ⊢
  rw [afterDecision_crc, afterDecision_rom, hn, Nat.add_sub_cancel]
  split
  next hlast =>
    have hbyte : (k + 1) / 8 = k / 8 + 1 := by omega
    rw [hbyte, Nat.add_sub_cancel, List.range_succ, List.map_append, hbelow, crcFold, List.foldl_append, h]
    rfl
  next hmid =>
    have hbyte : (k + 1) / 8 = k / 8 := by omega
    rw [hbyte, hbelow, h]

/-! ## The positions completed -/

theorem toNat_nextPos {n : Pos} {k : Nat} (hn : n.toNat = k + 1) (hk : k < 64) : (n + 1).toNat = k + 1 + 1 := by
  rw [BitVec.toNat_add, hn]
  exact Nat.mod_eq_of_lt (by simp; omega)

/-- A loop of `left` positions after the first `k` ends in `y`, having completed the positions `xs`. -/
structure LoopCompletes (k left : Nat) (s : State) (y : Bool × Pos × State) (xs : List PassPosition) : Prop where
  events : y.2.2.trace = (xs.flatMap (PassPosition.events s.params.profile) ++
    if y.1 then [] else readEvents s.params.profile true ++ readEvents s.params.profile true).reverse ++ s.trace
  count : if y.1 then xs.length = left else xs.length < left
  reads : ∀ x ∈ xs, (x.idBit && x.cmpBit) = false ∧ (x.idBit ≠ x.cmpBit → x.dir = x.idBit)
  directions : xs.map PassPosition.dir = (List.range' k xs.length).map fun j => y.2.2.rom.getLsbD j
  below : ∀ j < k, y.2.2.rom.getLsbD j = s.rom.getLsbD j
  crc : s.CrcFoldsTo k → y.2.2.CrcFoldsTo (k + xs.length)

section Position

variable {k left : Nat} {n : Pos} {s : State}

/-- A position that aborts is not completed. -/
theorem loopCompletes_abort (lz : Pos) (hdecision : decision s.nextLevel s.dropLevel.nextLevel n s = none) :
    LoopCompletes k (left + 1) s (false, lz, s.afterReads) [] where
  events := by
    obtain ⟨hid, hcmp⟩ := decision_eq_none hdecision
    simp [hid, hcmp]
  count := Nat.succ_pos left
  reads := nofun
  directions := rfl
  below _ _ := by rw [afterReads_rom]
  crc := afterReads_crcFoldsTo.2

/-- A position that goes on is completed, before those of the rest of the loop. -/
theorem LoopCompletes.cons {dir zero : Bool} {y : Bool × Pos × State} {xs : List PassPosition} (hn : n.toNat = k + 1)
    (hk : k < 64) (hdecision : decision s.nextLevel s.dropLevel.nextLevel n s = some (dir, zero))
    (h : LoopCompletes (k + 1) left (afterDecision n dir zero s.afterReads) y xs) :
    LoopCompletes k (left + 1) s y (⟨s.nextLevel, s.dropLevel.nextLevel, dir⟩ :: xs) := by
  have hbit (j : Nat) (hj : j < k + 1) : y.2.2.rom.getLsbD j = if j = k ∧ k < 64 then dir else s.rom.getLsbD j := by
    rw [h.below j hj, afterDecision_rom, afterReads_rom, hn, Nat.add_sub_cancel, getLsbD_setBit]
  constructor
  case events =>
    have hevents := h.events
    rw [afterDecision_params, afterReads_params, afterDecision_trace, afterReads_trace, afterReads_params] at hevents
    simpa [PassPosition.events] using hevents
  case count => simpa using h.count
  case reads => exact List.forall_mem_cons.2 ⟨decision_eq_some hdecision, h.reads⟩
  case directions =>
    rw [List.map_cons, h.directions, List.length_cons, List.range'_succ, List.map_cons, hbit k (by omega),
      if_pos ⟨rfl, hk⟩]
  case below => exact fun j hj => (hbit j (by omega)).trans (if_neg (by omega))
  case crc =>
    intro hfold
    have hdone := h.crc ((afterReads_crcFoldsTo.2 hfold).afterDecision hn dir zero)
    rwa [show k + 1 + xs.length = k + (xs.length + 1) by omega] at hdone

end Position

theorem searchLoop_completes {k left : Nat} {n : Pos} (lz : Pos) (s : State) (hn : n.toNat = k + 1)
    (hleft : k + left ≤ 64) : ∃ xs, LoopCompletes k left s (Pseudo.searchLoop left n lz s) xs := by
  induction left generalizing k n lz s with
  | zero => exact ⟨[], rfl, rfl, nofun, rfl, fun _ _ => rfl, id⟩
  | succ left ih =>
    cases hdecision : decision s.nextLevel s.dropLevel.nextLevel n s with
    | none =>
      rw [searchLoop_abort left lz hdecision]
      exact ⟨[], loopCompletes_abort lz hdecision⟩
    | some d =>
      rw [searchLoop_goOn left lz hdecision]
      obtain ⟨xs, h⟩ := ih _ (afterDecision n d.1 d.2 s.afterReads) (toNat_nextPos hn (by omega)) (by omega)
      exact ⟨_, h.cons hn (by omega) hdecision⟩

/-! ## The end of a pass -/

theorem searchEnd_crcError (lz : Pos) {s : State} (hcrc : s.crc ≠ 0) :
    Pseudo.searchEnd true lz s = (.crcError, s.resetSearch) :=
  (if_neg nofun).trans (if_pos hcrc)

theorem searchEnd_zeroFamily (lz : Pos) {s : State} (hcrc : s.crc = 0) (hfamily : romByte s.rom 0 = 0) :
    Pseudo.searchEnd true lz s = (.zeroFamily, s.resetSearch) :=
  (if_neg nofun).trans ((if_neg (not_not_intro hcrc)).trans (if_pos hfamily))

theorem searchEnd_found (lz : Pos) {s : State} (hcrc : s.crc = 0) (hfamily : romByte s.rom 0 ≠ 0) :
    Pseudo.searchEnd true lz s = (.found, { s with lastDisc := lz, lastDevFlag := decide (lz = 0) }) :=
  (if_neg nofun).trans ((if_neg (not_not_intro hcrc)).trans (if_neg hfamily))

/-- What the outcome of steps 5 to 7 says of the loop before them, and what they leave (42_search.md R165, R170,
R171). -/
theorem searchEnd_outcome (ok : Bool) (lz : Pos) (s : State) :
    let z := Pseudo.searchEnd ok lz s
    (z.1 = .busError ↔ ok = false) ∧ (z.1 = .found → s.crc = 0 ∧ z.2.rom = s.rom)
      ∧ z.2.trace = s.trace ∧ z.2.crc = s.crc := by
  cases ok with
  | false => exact ⟨⟨fun _ => rfl, fun _ => rfl⟩, nofun, rfl, rfl⟩
  | true =>
    by_cases hcrc : s.crc = 0
    · by_cases hfamily : romByte s.rom 0 = 0
      · rw [searchEnd_zeroFamily lz hcrc hfamily]
        exact ⟨⟨nofun, nofun⟩, nofun, rfl, rfl⟩
      · rw [searchEnd_found lz hcrc hfamily]
        exact ⟨⟨nofun, nofun⟩, fun _ => ⟨hcrc, rfl⟩, rfl, rfl⟩
    · rw [searchEnd_crcError lz hcrc]
      exact ⟨⟨nofun, nofun⟩, nofun, rfl, rfl⟩

/-- Any other outcome is that of a pass that reached its loop. -/
theorem searchPass_reachesLoop {s : State} (hexhausted : (Pseudo.searchPass s).1.1 ≠ .exhausted)
    (habsent : (Pseudo.searchPass s).1.1 ≠ .noPresence) : s.lastDevFlag = false ∧ s.nextLevel = false := by
  cases hgoes : s.lastDevFlag with
  | true => exact absurd (by rw [searchPass_exhausted hgoes]) hexhausted
  | false =>
    cases hlevel : s.nextLevel with
    | true => exact absurd (by rw [searchPass_absent hgoes hlevel]) habsent
    | false => exact ⟨rfl, rfl⟩

theorem searchStart_trace (i : Instr) (s : State) : (s.searchStart i).trace = s.trace := by
  unfold State.searchStart
  split <;> rfl

/-- The loop of a pass from `u` ends in `y`, having completed the positions `xs` of 64. -/
structure PassCompletes (u : State) (y : Bool × Pos × State) (xs : List PassPosition) : Prop where
  events : y.2.2.trace = (passEvents u.params.profile xs (!y.1)).reverse ++ u.trace
  count : if y.1 then xs.length = 64 else xs.length < 64
  reads : ∀ x ∈ xs, (x.idBit && x.cmpBit) = false ∧ (x.idBit ≠ x.cmpBit → x.dir = x.idBit)
  directions : xs.map PassPosition.dir = (List.range xs.length).map fun j => y.2.2.rom.getLsbD j
  crc : y.2.2.CrcFoldsTo xs.length

theorem searchLoop_atLoop {u : State} (hlevel : u.nextLevel = false) :
    ∃ xs, PassCompletes u (Pseudo.searchLoop 64 1 0 u.atLoop) xs := by
  obtain ⟨w, hbegin⟩ := atLoop_afterSlots u
  have hparams : u.atLoop.params = u.params := by simp [hbegin]
  have htrace : u.atLoop.trace = (resetEvents u.params.profile false
      ++ (wireBits 0xF0).flatMap (writeEvents u.params.profile)).reverse ++ u.trace := by
    simp [hbegin, hlevel, State.afterSlots, State.clearCrc]
  have hcrc : u.atLoop.CrcFoldsTo 0 := by rw [hbegin]; rfl
  obtain ⟨xs, h⟩ := searchLoop_completes (k := 0) (left := 64) (n := 1) 0 u.atLoop rfl le_rfl
  have hevents := h.events
  rw [hparams, htrace, ← List.append_assoc, ← List.reverse_append, ← List.append_assoc] at hevents
  refine ⟨xs, hevents.trans ?_, h.count, h.reads, ?_, by simpa using h.crc hcrc⟩
  · cases (Pseudo.searchLoop 64 1 0 u.atLoop).1 <;> rfl
  · rw [h.directions, List.range_eq_range']

/-- Settles O59: a pass that saw a device goes through its loop, and steps 5 to 7 leave the events and CRC. -/
theorem passEventsAndPartialCrc : Obligations.PassEventsAndPartialCrc := by
  intro i s t hi hexec hexhausted habsent
  rw [exec_search hi] at hexec
  cases hexec
  obtain ⟨hgoes, hlevel⟩ := searchPass_reachesLoop hexhausted habsent
  rw [← congrArg Params.profile (searchStart_same i s).params, ← searchStart_trace i s]
  generalize s.searchStart i = u at *
  obtain ⟨xs, h⟩ := searchLoop_atLoop hlevel
  rw [searchPass_present hgoes hlevel]
  generalize Pseudo.searchLoop 64 1 0 u.atLoop = y at h ⊢
  obtain ⟨hbus, hfound, htrace, hcrc⟩ := searchEnd_outcome y.1 y.2.1 y.2.2
  have haborted : decide ((Pseudo.searchEnd y.1 y.2.1 y.2.2).1 = .busError) = !y.1 := by simp [hbus]
  have hcount := h.count
  refine ⟨xs, y.2.2.rom, htrace.trans (h.events.trans (by rw [← haborted]; rfl)), ?_, h.reads, h.directions,
    hcrc.trans h.crc, fun hf => (hfound hf).2⟩
  cases hok : y.1 with
  | false =>
    rw [hok] at hcount
    exact (if_pos (hbus.2 hok)).mpr hcount
  | true =>
    rw [hok] at hcount
    exact (if_neg (fun hb => by simp [hbus.1 hb] at hok)).mpr hcount

/-! ## The CRC8 check -/

/-- TABLE is 0 at 0 only (43_crc8.md R204). -/
theorem crc8Table_eq_zero (x : Byte) : crc8Table x = 0 ↔ x = 0 := by
  revert x
  decide +kernel

/-- A byte folds an accumulator to 0 just if it is the accumulator (43_crc8.md R204). -/
theorem crcFold_concat_eq_zero (c : Byte) (bytes : List Byte) (b : Byte) :
    crcFold c (bytes ++ [b]) = 0 ↔ b = crcFold c bytes := by
  rw [crcFold, List.foldl_concat, crc8Update, crc8Table_eq_zero, ← crcFold]
  exact BitVec.xor_eq_zero_iff.trans eq_comm

/-- CRC is 0 after FOUND (42_search.md R170). -/
theorem crc_of_found {i : Instr} {s t : State} (hi : i = .owSearchFirst ∨ i = .owSearchNext)
    (hexec : exec i s = .next t) (hfound : t.sres = .found) : t.crc = 0 := by
  rw [exec_search hi] at hexec
  cases hexec
  generalize s.searchStart i = u at *
  have hres : (Pseudo.searchPass u).1.1 = .found := hfound
  obtain ⟨hgoes, hlevel⟩ := searchPass_reachesLoop (by rw [hres]; decide) (by rw [hres]; decide)
  rw [searchPass_present hgoes hlevel] at hfound ⊢
  obtain ⟨-, hcrc, -, hkept⟩ := searchEnd_outcome (Pseudo.searchLoop 64 1 0 u.atLoop).1
    (Pseudo.searchLoop 64 1 0 u.atLoop).2.1 (Pseudo.searchLoop 64 1 0 u.atLoop).2.2
  exact hkept.trans (hcrc hfound).1

/-- Settles O43: CRC is 0 after FOUND, and it is the fold of the eight bytes. -/
theorem foundAddressHasItsCrc : Obligations.FoundAddressHasItsCrc := by
  intro i s t hi hexec hfound
  obtain ⟨xs, rom, -, hcount, -, -, hcrc, hrom⟩ :=
    passEventsAndPartialCrc i s t hi hexec (by rw [hfound]; decide) (by rw [hfound]; decide)
  rw [hfound, if_neg (by decide)] at hcount
  rw [crc_of_found hi hexec hfound, hcount, ← hrom hfound, List.range_succ, List.map_append] at hcrc
  exact (crcFold_concat_eq_zero _ _ _).1 hcrc.symm

/-! ## A device alone on the bus -/

/-- Answers that differ give the direction, and no discrepancy (42_search.md R166). -/
theorem decision_complement (b : Bool) (n : Pos) (s : State) : decision b (!b) n s = some (b, false) := by
  cases b <;> rfl

/-- If the bus answers each position with a bit and its complement, the loop writes those bits and meets no discrepancy
(42_search.md R178). -/
theorem searchLoop_complements (bit : Nat → Bool) {k left : Nat} {n : Pos} (lz : Pos) {s : State} {rest : List Bool}
    (hn : n.toNat = k + 1) (hleft : k + left ≤ 64)
    (hlevels : s.levels = (List.range' k left).flatMap (fun j => [bit j, !bit j]) ++ rest) :
    let y := Pseudo.searchLoop left n lz s
    y.1 = true ∧ y.2.1 = lz ∧ y.2.2.levels = rest ∧ ∀ j, k ≤ j → j < k + left → y.2.2.rom.getLsbD j = bit j := by
  induction left generalizing k n s with
  | zero => exact ⟨rfl, rfl, hlevels, fun j hj hlt => by omega⟩
  | succ left ih =>
    obtain ⟨hid, hcmp, w, hreads⟩ := reads_of_levels hlevels
    have hgo := searchLoop_goOn left lz (by rw [hid, hcmp]; exact decision_complement (bit k) n s)
    have hnext := toNat_nextPos hn (by omega)
    have hdone : (afterDecision n (bit k) false s.afterReads).levels =
        (List.range' (k + 1) left).flatMap (fun j => [bit j, !bit j]) ++ rest := by
      rw [afterDecision_levels, hreads]
      rfl
    obtain ⟨hok, hlz, hrest, hbits⟩ := ih hnext (by omega) hdone
    obtain ⟨xs, hloop⟩ := searchLoop_completes (left := left) lz (afterDecision n (bit k) false s.afterReads) hnext
      (by omega)
    have hbit : (afterDecision n (bit k) false s.afterReads).rom.getLsbD k = bit k := by
      rw [afterDecision_rom, hn, Nat.add_sub_cancel, getLsbD_setBit, if_pos ⟨rfl, by omega⟩]
    rw [hgo]
    refine ⟨hok, hlz, hrest, fun j hj hlt => ?_⟩
    rcases hj.eq_or_lt with rfl | hlater
    · exact (hloop.below k (by omega)).trans hbit
    · exact hbits j hlater (by omega)

theorem length_passEvents (p : Profile) (xs : List PassPosition) (aborted : Bool) :
    (passEvents p xs aborted).length = 38 + 16 * xs.length + if aborted then 12 else 0 := by
  have hwrite (b : Bool) : (writeEvents p b).length = 4 := by cases b <;> rfl
  have hread (b : Bool) : (readEvents p b).length = 6 := rfl
  have hposition (x : PassPosition) : (x.events p).length = 16 := by
    simp [PassPosition.events, hwrite, hread]
  have hpositions : (xs.flatMap (PassPosition.events p)).length = 16 * xs.length := by
    simp [List.length_flatMap, hposition, Nat.mul_comm]
  have hbyte : ((wireBits 0xF0).flatMap (writeEvents p)).length = 32 := rfl
  have habort : (if aborted then readEvents p true ++ readEvents p true else []).length =
      if aborted then 12 else 0 := by cases aborted <;> rfl
  rw [passEvents, List.length_append, List.length_append, List.length_append, hbyte, hpositions, habort]
  rfl

/-- Settles O44: the loop writes the device's code, its CRC is the fold of the code, and steps 5 to 7 find it. -/
theorem loneDeviceIsFound : Obligations.LoneDeviceIsFound := by
  intro s rom rest hcode hfamily hlevels
  refine ⟨_, exec_owSearchFirst s, ?_⟩
  have hlevel : s.resetSearch.nextLevel = false := nextLevel_of_levels hlevels
  obtain ⟨w, hbegin⟩ := atLoop_of_levels (s := s.resetSearch) hlevels
  have hanswers : s.resetSearch.atLoop.levels =
      (List.range' 0 64).flatMap (fun j => [rom.getLsbD j, !rom.getLsbD j]) ++ rest := by
    rw [hbegin, ← List.range_eq_range']
    rfl
  obtain ⟨hok, hlz, hrest, hbits⟩ := searchLoop_complements rom.getLsbD (n := 1) 0 rfl le_rfl hanswers
  obtain ⟨xs, h⟩ := searchLoop_atLoop hlevel
  rw [searchPass_present rfl hlevel]
  generalize Pseudo.searchLoop 64 1 0 s.resetSearch.atLoop = y at *
  obtain ⟨ok, lz, v⟩ := y
  obtain rfl : ok = true := hok
  obtain rfl : lz = 0 := hlz
  have hrom : v.rom = rom := BitVec.eq_of_getLsbD_eq fun j hj => hbits j (Nat.zero_le j) (by omega)
  have hcount : xs.length = 64 := h.count
  have hcrc : v.crc = 0 := by
    have hfold := h.crc
    rw [hcount, State.CrcFoldsTo] at hfold
    exact hfold.trans (by rw [hrom]; exact hcode)
  have hevents := congrArg List.length h.events
  rw [List.length_append, List.length_reverse, length_passEvents, hcount] at hevents
  dsimp only
  rw [searchEnd_found 0 hcrc (by rwa [hrom])]
  exact ⟨rfl, rfl, hrom, rfl, rfl, rfl, hcrc, hrest, hevents⟩

/-! ## A line stuck low -/

/-- With no last discrepancy, a first branch takes 0 (42_search.md R166). -/
theorem decision_zeros {n : Pos} {s : State} (hdisc : s.lastDisc = 0) (hn : n ≠ 0) :
    decision false false n s = some (false, true) := by
  simpa [decision, hdisc] using hn

/-- A position that writes 0 keeps ROM and CRC 0. -/
theorem afterDecision_zero {n : Pos} {zero : Bool} {s : State} (hrom : s.rom = 0) (hcrc : s.crc = 0) :
    (afterDecision n false zero s).rom = 0 ∧ (afterDecision n false zero s).crc = 0 := by
  have hset : setBit (0 : RomCode) (n.toNat - 1) false = 0 := BitVec.zero_and
  have hbyte : romByte 0 (n.toNat / 8 - 1) = 0 := by simp [romByte]
  have hfold : crc8Update 0 0 = 0 := rfl
  rw [afterDecision_crc, afterDecision_rom, hrom, hcrc, hset, hbyte, hfold, ite_self]
  exact ⟨rfl, rfl⟩

/-- If every sample is 0 the loop of a new search writes 0 at every position. -/
theorem searchLoop_zeros {k left : Nat} {n : Pos} (lz : Pos) {s : State} {rest : List Bool} (hn : n.toNat = k + 1)
    (hleft : k + left ≤ 64) (hlevels : s.levels = List.replicate (2 * left) false ++ rest) (hdisc : s.lastDisc = 0)
    (hrom : s.rom = 0) (hcrc : s.crc = 0) :
    let y := Pseudo.searchLoop left n lz s
    y.1 = true ∧ y.2.2.rom = 0 ∧ y.2.2.crc = 0 := by
  induction left generalizing k n lz s with
  | zero => exact ⟨rfl, hrom, hcrc⟩
  | succ left ih =>
    obtain ⟨hid, hcmp, w, hreads⟩ := reads_of_levels hlevels
    have hpos : n ≠ 0 := by rintro rfl; simp at hn
    have hgo := searchLoop_goOn left lz (by rw [hid, hcmp]; exact decision_zeros hdisc hpos)
    have hnext := toNat_nextPos hn (by omega)
    have hzero := afterDecision_zero (n := n) (zero := true) ((afterReads_rom s).trans hrom)
      ((afterReads_crc s).trans hcrc)
    rw [hgo]
    refine ih _ hnext (by omega) ?_ ?_ hzero.1 hzero.2
    · rw [afterDecision_levels, hreads]
      rfl
    · rw [afterDecision_lastDisc, hreads]
      exact hdisc

/-- Settles O45: the loop writes the code 0, whose CRC is 0 and whose family code is 0. -/
theorem stuckLowLineIsZeroFamily : Obligations.StuckLowLineIsZeroFamily := by
  intro s rest hlevels
  refine ⟨_, exec_owSearchFirst s, ?_⟩
  have hlevel : s.resetSearch.nextLevel = false := nextLevel_of_levels hlevels
  obtain ⟨w, hbegin⟩ := atLoop_of_levels (s := s.resetSearch) hlevels
  obtain ⟨hok, hrom, hcrc⟩ := searchLoop_zeros (n := 1) (left := 64) (s := s.resetSearch.atLoop)
    (rest := rest) 0 rfl le_rfl (by rw [hbegin]; rfl) (by rw [hbegin]; rfl) (by rw [hbegin]; rfl) (by rw [hbegin]; rfl)
  rw [searchPass_present rfl hlevel]
  dsimp only
  rw [hok, searchEnd_zeroFamily _ hcrc (by rw [hrom]; rfl)]
  exact ⟨rfl, rfl, rfl, hcrc, rfl, rfl, rfl⟩

end Sys2Proof.Machine
end

section
/-! What a search reads (O46, O48, O49): no command reads LAST_FAM_DISC, OW_SEARCH_NEXT depends on SRCH and ROM only, and
SRCH, ROM_LO and ROM_HI carry the search state over (42_search.md R176, R177). -/

namespace Sys2Proof.Machine

open Sys2Proof

/-! ## Another value of LAST_FAM_DISC -/

/-- The same block with another value of LAST_FAM_DISC (10_state.md R25). -/
def State.withFam (x : Pos) (s : State) : State := { s with lastFamDisc := x }

theorem dropLevel_withFam (x : Pos) (s : State) : (s.withFam x).dropLevel = s.dropLevel.withFam x := by
  cases hlevels : s.levels <;> simp [State.dropLevel, State.withFam, hlevels]

theorem sample_withFam (x : Pos) (s : State) (d : Dest) : (s.withFam x).sample d = (s.sample d).withFam x := by
  have hanswered : (s.withFam x).answered = s.answered.withFam x := by
    simp only [State.answered, dropLevel_withFam, apply_ite (State.withFam x)]
    rfl
  simp only [State.sample, hanswered]
  cases d <;> rfl

/-- Alike but for the value of LAST_FAM_DISC. -/
def State.SameButFam (t s : State) : Prop := ∃ y, t = s.withFam y

/-- A decision made without it is the same one. -/
theorem State.SameButFam.ite {c : Prop} [Decidable c] {s s' t t' : State} (hs : s'.SameButFam s)
    (ht : t'.SameButFam t) : (if c then s' else t').SameButFam (if c then s else t) := by
  split
  · exact hs
  · exact ht

/-- Steps 5 to 7 keep the value, or reset it with the rest of the search state. -/
theorem passEnd_withFam (x : Pos) (s : State) : (s.withFam x).passEnd.SameButFam s.passEnd :=
  .ite ⟨0, rfl⟩ (.ite ⟨0, rfl⟩ (.ite ⟨0, rfl⟩ ⟨x, rfl⟩))

/-- A direction is chosen without it; a 0 chosen at a discrepancy may write it (42_search.md R167). -/
theorem direction_withFam (x : Pos) (s : State) : (s.withFam x).direction.SameButFam s.direction :=
  .ite (passEnd_withFam x { s with temps := { s.temps with ok := false } })
    (.ite ⟨x, rfl⟩ (.ite ⟨x, rfl⟩ ⟨if s.temps.n < 9 then s.temps.n else x, rfl⟩))

theorem doAct_withFam (x : Pos) (s : State) (a : Act) : ((s.withFam x).doAct a).SameButFam (s.doAct a) := by
  cases a with
  | passBegin => exact .ite ⟨x, rfl⟩ ⟨x, rfl⟩
  | presenceCheck => exact .ite ⟨x, rfl⟩ ⟨0, rfl⟩
  | direction => exact direction_withFam x s
  | passEnd => exact passEnd_withFam x s
  | resetSearch => exact ⟨0, rfl⟩
  | clearByte | storeByte _ | loopBegin | advance => exact ⟨x, rfl⟩

theorem doOp_withFam (x : Pos) (s : State) (op : Op) : ((s.withFam x).doOp op).SameButFam (s.doOp op) := by
  cases op with
  | sample d => exact ⟨x, sample_withFam x s d⟩
  | act a => exact doAct_withFam x s a
  | drive | release | delay _ | delayDir _ _ => exact ⟨x, rfl⟩

theorem runOps_withFam (x : Pos) (ops : List Op) (s : State) :
    (runOps ops (s.withFam x)).SameButFam (runOps ops s) := by
  induction ops generalizing x s with
  | nil => exact ⟨x, rfl⟩
  | cons op rest ih =>
    cases hstop : s.temps.stop with
    | true => exact ⟨x, by rw [runOps_of_stop _ _ hstop, runOps_of_stop _ (s.withFam x) hstop]⟩
    | false =>
      obtain ⟨y, hop⟩ := doOp_withFam x s op
      obtain ⟨z, hrest⟩ := ih y (s.doOp op)
      exact ⟨z, by rw [runOps_cons _ _ _ hstop, runOps_cons _ _ (s.withFam x) hstop, hop, hrest]⟩

theorem complete_withFam (x : Pos) (s : State) (c : Completion) :
    (s.withFam x).complete c = (s.complete c).withFam x := by
  cases c with
  | search =>
    exact congrArg (fun u => (State.setOutcome u s.temps.res).retire)
      (apply_ite (State.withFam x) _ (s.setPresence s.temps.p) s).symm
  | nothing | presence | data | crc _ => rfl

theorem programOf_withFam (x : Pos) (i : Instr) (s : State) : programOf i (s.withFam x) = programOf i s := by
  cases i <;> rfl

/-- Settles O46: no element reads LAST_FAM_DISC, so a command runs alike with another value of it. -/
theorem lastFamDiscIsNeverRead : Obligations.LastFamDiscIsNeverRead := by
  intro i s t x hexec
  cases hwf : i.wf s.params.blockMax with
  | true =>
    rw [exec_wf hwf] at hexec
    cases hexec
    obtain ⟨y, hrun⟩ := runOps_withFam x (programOf i s).ops { s with temps := Temps.fresh }
    have hfinish : (State.withFam x { s with temps := Temps.fresh }).finish (programOf i s) =
        (State.finish { s with temps := Temps.fresh } (programOf i s)).withFam y := by
      rw [State.finish, hrun, complete_withFam, State.finish]
    refine ⟨y, (exec_wf (s := s.withFam x) hwf).trans (congrArg _ ?_)⟩
    rw [programOf_withFam]
    exact hfinish
  | false =>
    rw [exec_not_wf hwf] at hexec
    cases hexec
    exact ⟨x, exec_not_wf (s := s.withFam x) hwf⟩

/-! ## Two blocks with the same search state -/

/-- Two blocks alike in what a pass reads after step 1, having performed the same events since their traces were `a` and
`b`. -/
structure SearchAlike (a b : List LineEvent) (s u : State) : Prop where
  params : u.params = s.params
  lastDisc : u.lastDisc = s.lastDisc
  rom : u.rom = s.rom
  crc : u.crc = s.crc
  levels : u.levels = s.levels
  sampleDraws : u.sampleDraws = s.sampleDraws
  events : ∃ es, s.trace = es ++ a ∧ u.trace = es ++ b

namespace SearchAlike

variable {a b : List LineEvent} {s u : State}

theorem nextLevel (h : SearchAlike a b s u) : u.nextLevel = s.nextLevel := nextLevel_congr h.levels h.sampleDraws

theorem dropLevel (h : SearchAlike a b s u) : SearchAlike a b s.dropLevel u.dropLevel where
  params := by simpa using h.params
  lastDisc := by simpa using h.lastDisc
  rom := by simpa using h.rom
  crc := by simpa using h.crc
  levels := by rw [dropLevel_levels, dropLevel_levels, h.levels]
  sampleDraws := by rw [dropLevel_sampleDraws, dropLevel_sampleDraws, h.levels, h.sampleDraws]
  events := by simpa using h.events

theorem afterSlots (h : SearchAlike a b s u) (es : List LineEvent) (w w' : Nat) :
    SearchAlike a b (s.afterSlots es w) (u.afterSlots es w') where
  params := h.params
  lastDisc := h.lastDisc
  rom := h.rom
  crc := h.crc
  levels := h.levels
  sampleDraws := h.sampleDraws
  events := by
    obtain ⟨es', hs, hu⟩ := h.events
    exact ⟨es.reverse ++ es', by simp [State.afterSlots, hs], by simp [State.afterSlots, hu]⟩

theorem afterReads (h : SearchAlike a b s u) : SearchAlike a b s.afterReads u.afterReads := by
  unfold State.afterReads
  rw [h.nextLevel, h.dropLevel.nextLevel, h.params]
  exact h.dropLevel.dropLevel.afterSlots _ _ _

theorem afterDecision (h : SearchAlike a b s u) (n : Pos) (dir zero : Bool) :
    SearchAlike a b (afterDecision n dir zero s) (afterDecision n dir zero u) where
  params := by rw [afterDecision_params, afterDecision_params, h.params]
  lastDisc := by rw [afterDecision_lastDisc, afterDecision_lastDisc, h.lastDisc]
  rom := by rw [afterDecision_rom, afterDecision_rom, h.rom]
  crc := by rw [afterDecision_crc, afterDecision_crc, h.crc, h.rom]
  levels := by rw [afterDecision_levels, afterDecision_levels, h.levels]
  sampleDraws := by rw [afterDecision_sampleDraws, afterDecision_sampleDraws, h.sampleDraws]
  events := by
    obtain ⟨es, hs, hu⟩ := h.events
    exact ⟨(writeEvents s.params.profile dir).reverse ++ es, by rw [afterDecision_trace, hs, List.append_assoc],
      by rw [afterDecision_trace, hu, h.params, List.append_assoc]⟩

/-- The loops of the two take the same decisions. -/
theorem searchLoop (h : SearchAlike a b s u) (left : Nat) (n lz : Pos) :
    let y := Pseudo.searchLoop left n lz s
    let z := Pseudo.searchLoop left n lz u
    z.1 = y.1 ∧ z.2.1 = y.2.1 ∧ SearchAlike a b y.2.2 z.2.2 := by
  induction left generalizing n lz s u with
  | zero => exact ⟨rfl, rfl, h⟩
  | succ left ih =>
    have hsame : decision u.nextLevel u.dropLevel.nextLevel n u = decision s.nextLevel s.dropLevel.nextLevel n s := by
      rw [h.nextLevel, h.dropLevel.nextLevel, decision, decision, h.lastDisc, h.rom]
    cases hdecision : decision s.nextLevel s.dropLevel.nextLevel n s with
    | none =>
      rw [searchLoop_abort left lz hdecision, searchLoop_abort left lz (hsame.trans hdecision)]
      exact ⟨rfl, rfl, h.afterReads⟩
    | some d =>
      rw [searchLoop_goOn left lz hdecision, searchLoop_goOn left lz (hsame.trans hdecision)]
      exact ih (h.afterReads.afterDecision n d.1 d.2) _ _

theorem resetSearch (h : SearchAlike a b s u) : SearchAlike a b s.resetSearch u.resetSearch :=
  ⟨h.params, rfl, rfl, h.crc, h.levels, h.sampleDraws, h.events⟩

/-- Steps 5 to 7 of the two have the same outcome, and leave the same search state. -/
theorem searchEnd (h : SearchAlike a b s u) (ok : Bool) (lz : Pos) :
    let y := Pseudo.searchEnd ok lz s
    let z := Pseudo.searchEnd ok lz u
    z.1 = y.1 ∧ z.2.lastDevFlag = y.2.lastDevFlag ∧ SearchAlike a b y.2 z.2 := by
  cases ok with
  | false => exact ⟨rfl, rfl, h.resetSearch⟩
  | true =>
    by_cases hcrc : s.crc = 0
    · by_cases hfamily : romByte s.rom 0 = 0
      · rw [searchEnd_zeroFamily lz hcrc hfamily,
          searchEnd_zeroFamily lz (h.crc.trans hcrc) ((congrArg (romByte · 0) h.rom).trans hfamily)]
        exact ⟨rfl, rfl, h.resetSearch⟩
      · rw [searchEnd_found lz hcrc hfamily, searchEnd_found lz (h.crc.trans hcrc) (by rwa [h.rom])]
        exact ⟨rfl, rfl, h.params, rfl, h.rom, h.crc, h.levels, h.sampleDraws, h.events⟩
    · rw [searchEnd_crcError lz hcrc, searchEnd_crcError lz (by rwa [h.crc])]
      exact ⟨rfl, rfl, h.resetSearch⟩

theorem resetPresence (h : SearchAlike a b s u) :
    SearchAlike a b (Pseudo.resetPresence s).2 (Pseudo.resetPresence u).2 := by
  rw [resetPresence_afterSlots, resetPresence_afterSlots, h.nextLevel, h.params]
  exact h.dropLevel.afterSlots _ _ _

theorem writeByte (h : SearchAlike a b s u) (v : Byte) :
    SearchAlike a b (Pseudo.writeByte v s) (Pseudo.writeByte v u) := by
  obtain ⟨w, hs⟩ := writeByte_afterSlots v s
  obtain ⟨w', hu⟩ := writeByte_afterSlots v u
  rw [hs, hu, h.params]
  exact h.afterSlots _ _ _

/-- A pass that is not exhausted clears CRC, and from there on the two are alike. -/
theorem searchPass (h : SearchAlike a b s.clearCrc u.clearCrc) (hs : s.lastDevFlag = false)
    (hu : u.lastDevFlag = false) :
    let y := Pseudo.searchPass s
    let z := Pseudo.searchPass u
    z.1 = y.1 ∧ y.1.2.1 = true ∧ z.2.lastDevFlag = y.2.lastDevFlag ∧ SearchAlike a b y.2 z.2 := by
  have hnext : u.nextLevel = s.nextLevel := h.nextLevel
  cases hlevel : s.nextLevel with
  | true =>
    rw [searchPass_absent hs hlevel, searchPass_absent hu (hnext.trans hlevel)]
    exact ⟨rfl, rfl, rfl, h.resetPresence.resetSearch⟩
  | false =>
    rw [searchPass_present hs hlevel, searchPass_present hu (hnext.trans hlevel)]
    obtain ⟨hok, hlz, hloop⟩ := (h.resetPresence.writeByte 0xF0).searchLoop 64 1 0
    obtain ⟨hres, hflag, hend⟩ := hloop.searchEnd (Pseudo.searchLoop 64 1 0 s.atLoop).1
      (Pseudo.searchLoop 64 1 0 s.atLoop).2.1
    dsimp only [State.atLoop] at *
    rw [hok, hlz]
    exact ⟨by rw [hres], rfl, hflag, hend⟩

end SearchAlike

/-- Settles O49: step 1 reads LAST_DEV_FLAG alone, and the rest of the pass runs alike in the two blocks. -/
theorem searchDependsOnSearchStateOnly : Obligations.SearchDependsOnSearchStateOnly := by
  intro s u t hparams hdisc hflag hrom hlevels hdraws hexec
  rw [exec_owSearchNext] at hexec
  cases hexec
  cases hgoes : s.lastDevFlag with
  | true =>
    refine ⟨_, [], exec_owSearchNext u, ?_⟩
    rw [searchPass_exhausted hgoes, searchPass_exhausted (hflag.trans hgoes)]
    exact ⟨rfl, rfl, hrom, hdisc, hflag, hlevels, hdraws, rfl, rfl, nofun⟩
  | false =>
    have hbegin : SearchAlike s.trace u.trace s.clearCrc u.clearCrc :=
      ⟨hparams, hdisc, hrom, rfl, hlevels, hdraws, [], rfl, rfl⟩
    obtain ⟨hres, hseen, hdev, hend⟩ := hbegin.searchPass hgoes (hflag.trans hgoes)
    obtain ⟨es, hs, hu⟩ := hend.events
    refine ⟨_, es, exec_owSearchNext u, congrArg Prod.fst hres,
      congrArg (fun x : Sres × Bool × Bool => decide (x.1 = .found)) hres, hend.rom, hend.lastDisc, hdev,
      hend.levels, hend.sampleDraws, hs, hu, fun _ => ⟨hend.crc, ?_⟩⟩
    simp [Pseudo.searchComplete, hres, hseen]

/-! ## The search state as the host saves it -/

theorem getLsbD_srchWord (s : State) {j : Nat} (hj : j < 32) :
    s.srchWord.getLsbD j = (s.lastDisc.getLsbD j || (s.lastDevFlag && decide (j = 7))
      || (!decide (j < 8) && s.lastFamDisc.getLsbD (j - 8))) := by
  have hfam : j - 8 < 32 := by omega
  simp only [State.srchWord, BitVec.getLsbD_or, BitVec.getLsbD_setWidth, BitVec.getLsbD_shiftLeft,
    getLsbD_flagAt _ _ _ hj, hj, hfam, decide_true, Bool.true_and]

/-- The fields that a write of SRCH takes from the word that a read of it gives (20_memory.md R52). -/
theorem srchWord_fields (s : State) :
    s.srchWord.extractLsb' 0 7 = s.lastDisc ∧ s.srchWord.getLsbD 7 = s.lastDevFlag
      ∧ s.srchWord.extractLsb' 8 7 = s.lastFamDisc := by
  have hpast (v : Pos) {j : Nat} (hj : 7 ≤ j) : v.getLsbD j = false := BitVec.getLsbD_of_ge v j hj
  refine ⟨BitVec.eq_of_getLsbD_eq fun j hj => ?_, ?_, BitVec.eq_of_getLsbD_eq fun j hj => ?_⟩
  · rw [BitVec.getLsbD_extractLsb', Nat.zero_add, getLsbD_srchWord s (by omega)]
    grind
  · rw [getLsbD_srchWord s (by decide), hpast _ le_rfl]
    simp
  · rw [BitVec.getLsbD_extractLsb', getLsbD_srchWord s (by omega), hpast _ (by omega), Nat.add_sub_cancel_left]
    grind

/-- Settles O48: the word of SRCH carries its three fields, and the words of ROM carry ROM. -/
theorem savedSearchStateIsRestored : Obligations.SavedSearchStateIsRestored := by
  intro s u
  obtain ⟨hdisc, hflag, hfam⟩ := srchWord_fields s
  have hrom := rom_setRomLo_setRomHi (u.setSrchWord s.srchWord) (s.readReg .romLo) (s.readReg .romHi)
  rw [← rom_eq_append] at hrom
  calc ((u.setSrchWord s.srchWord).setRomLo (s.readReg .romLo)).setRomHi (s.readReg .romHi)
      = { u with
          lastDisc := s.srchWord.extractLsb' 0 7, lastDevFlag := s.srchWord.getLsbD 7
          lastFamDisc := s.srchWord.extractLsb' 8 7
          rom := (((u.setSrchWord s.srchWord).setRomLo (s.readReg .romLo)).setRomHi (s.readReg .romHi)).rom } := rfl
    _ = _ := by rw [hrom, hdisc, hflag, hfam]

end Sys2Proof.Machine
end

section
/-! The CRC8 validator (O32, O50, O60): its table is the one listed, its command folds one byte, and its check compares
the last byte with the fold of the others (43_crc8.md R200 to R204). -/

namespace Sys2Proof.Machine

open Sys2Proof

/-! ## The check -/

/-- The byte of R204 that the check is about stands last in a ROM code. -/
theorem romBytes_eq_concat (rom : RomCode) : romBytes rom = (List.range 7).map (romByte rom) ++ [romByte rom 7] := by
  rw [romBytes, List.range_succ, List.map_append, List.map_singleton]

/-- Zero bytes leave an accumulator of 0 as it is, for TABLE is 0 at 0 (43_crc8.md R204). -/
theorem crcFold_replicate_zero (n : Nat) : crcFold 0 (List.replicate n 0) = 0 := by
  have hfold : crc8Update 0 0 = 0 := rfl
  induction n with
  | zero => rfl
  | succ n ih => rwa [List.replicate_succ, crcFold, List.foldl_cons, hfold]

theorem romBytes_zero : romBytes 0 = List.replicate 8 0 := rfl

/-- Settles O50: the last byte folds the accumulator to 0 just if it is the accumulator, a ROM code's last byte too. -/
theorem crcCheckAcceptsExactly : Obligations.CrcCheckAcceptsExactly := by
  refine ⟨crcFold_concat_eq_zero 0, crc8Table_eq_zero, fun rom => ⟨?_, ?_⟩⟩
  · rw [romBytes_eq_concat]
    exact crcFold_concat_eq_zero 0 _ _
  · rw [romBytes_zero]
    exact crcFold_replicate_zero 8

/-! ## The command -/

theorem complete_crc_idleAs (s : State) (b : Byte) :
    (s.complete (.crc b)).IdleAs { s with crc := crc8Table (s.crc ^^^ b) } := ⟨rfl, rfl⟩

/-- Settles O32: the command has no elements, and its completion folds the byte into CRC. -/
theorem crc8UpdateResult : Obligations.Crc8UpdateResult := by
  refine ⟨fun _ _ hop => decode_of_fields (i := .crc8Update _) hop rfl rfl, fun s b => ?_⟩
  exact ⟨_, exec_of_runOps (i := .crc8Update b) rfl rfl, (complete_crc_idleAs _ b).of_quiet rfl⟩

/-! ## The table -/

/-- The list of R201 is the table's values in order. -/
theorem tableRows_eq_map_crc8Table : tableRows = (List.range 256).map fun n => crc8Table (BitVec.ofNat 8 n) := by
  decide +kernel

/-- Settles O60: an entry of the list is the table's value at its place. -/
theorem crc8TableEntries : Obligations.Crc8TableEntries := by
  rw [Obligations.Crc8TableEntries, tableRows_eq_map_crc8Table]
  refine ⟨by rw [List.length_map, List.length_range], fun i => ?_⟩
  rw [List.getElem?_map, List.getElem?_range i.isLt, Option.map_some, BitVec.ofNat_toNat, BitVec.setWidth_eq]

end Sys2Proof.Machine
end

section
/-! Faults and the sticky bits (O12, O13, O57): no turn faults while the invariant holds, and a step changes OVR and ILL only
by a host write or a reset (60_exceptions.md R220, R222, R223). -/

namespace Sys2Proof.Machine

open Sys2Proof

/-! ## No fault -/

/-- A sequencer that is not still has a command in CUR. -/
theorem Inv.command_ok {s : State} (h : Inv s) (hmoves : ¬(s.inReset || !s.busy) = true) :
    ∃ i, s.command = .ok i := by
  obtain ⟨-, hbusy⟩ : s.inReset = false ∧ s.busy = true := by simpa using hmoves
  exact decode_of_legal (h.curLegal hbusy)

theorem exec_ne_fault (i : Instr) (s : State) (f : Fault) : exec i s ≠ .fault f := by
  rcases exec_answers i s with hnext | ⟨-, -, -, hnext⟩ <;> rw [hnext] <;> nofun

theorem hostRead_ne_fault (s : State) (addr bytes : Nat) (f : Fault) : s.hostRead addr bytes ≠ .fault f := by
  unfold State.hostRead
  split <;> nofun

theorem hostWrite_ne_fault (s : State) (addr bytes : Nat) (v : Word) (f : Fault) :
    s.hostWrite addr bytes v ≠ .fault f := by
  unfold State.hostWrite
  split <;> nofun

theorem Inv.sequencerMove_ne_fault {s : State} (h : Inv s) (f : Fault) : s.sequencerMove ≠ .fault f := by
  unfold State.sequencerMove
  split
  · nofun
  next hmoves =>
    obtain ⟨i, hi⟩ := h.command_ok hmoves
    rw [hi]
    split <;> nofun

theorem Inv.runToCompletion_ne_fault {s : State} (h : Inv s) (f : Fault) : s.runToCompletion ≠ .fault f := by
  unfold State.runToCompletion
  split
  · nofun
  next hmoves =>
    obtain ⟨i, hi⟩ := h.command_ok hmoves
    rw [hi]
    split
    · nofun
    · exact exec_ne_fault i s f

/-- Settles O57: a turn faults only on an illegal word in CUR while BUSY, which the invariant excludes. -/
theorem noFaultUnderInv : Obligations.NoFaultUnderInv := by
  intro s h f
  unfold step State.takeTurn
  split
  · exact h.runToCompletion_ne_fault f
  · exact hostRead_ne_fault _ _ _ f
  · exact hostWrite_ne_fault _ _ _ _ f
  · nofun
  · nofun
  · exact (h.withInputs _).sequencerMove_ne_fault f
  · exact (h.withInputs _).runToCompletion_ne_fault f

/-! ## The sticky bits -/

/-- What a host write does to OVR and ILL (10_state.md R22, 30_encoding.md R86, 70_reset_and_hazards.md R254). -/
theorem hostWriteReg_sticky (s : State) (r : Reg) (v : Word) :
    ((s.hostWriteReg r v).ovr = s.ovr ∧ (s.hostWriteReg r v).ill = s.ill)
    ∨ (r = .status ∧ s.hostWriteReg r v = s.clearSticky v)
    ∨ (s.busy = true ∧ r ≠ .status ∧ r ≠ .reserved ∧ s.hostWriteReg r v = s.setOvr)
    ∨ (s.busy = false ∧ r = .cmd ∧ legal s.params.blockMax v = false ∧ s.hostWriteReg r v = s.setIll) := by
  cases hbusy : s.busy with
  | true =>
    rw [State.hostWriteReg, if_pos hbusy]
    cases r with
    | status => exact .inr (.inl ⟨rfl, rfl⟩)
    | reserved => exact .inl ⟨rfl, rfl⟩
    | _ => exact .inr (.inr (.inl ⟨rfl, nofun, nofun, rfl⟩))
  | false =>
    rw [hostWriteReg_of_idle r v hbusy]
    cases r with
    | status => exact .inr (.inl ⟨rfl, rfl⟩)
    | cmd =>
      cases hlegal : legal s.params.blockMax v with
      | true => exact .inl (by simp [State.writeRegIdle, State.submit, hlegal])
      | false => exact .inr (.inr (.inr ⟨rfl, rfl, rfl, by simp [State.writeRegIdle, State.submit, hlegal]⟩))
    | _ => exact .inl ⟨rfl, rfl⟩

/-- What a step from `s` to `t` does to OVR and ILL: it keeps both, or is a write of STATUS, a dropped write, a write of an
illegal word to CMD, or a reset. -/
inductive StickyCase (s t : State) : Prop where
  | kept (ovr : t.ovr = s.ovr) (ill : t.ill = s.ill)
  | cleared (v : Word) (rest : List Input) (inputs : s.inputs = .hostWrite (s.params.owBase + 0x04) 4 v :: rest)
      (result : t = ({ s with inputs := rest } : State).clearSticky v)
  | dropped (off : Nat) (v : Word) (rest : List Input)
      (inputs : s.inputs = .hostWrite (s.params.owBase + off) 4 v :: rest) (busy : s.busy = true)
      (notStatus : regAt s.params.blockMax off ≠ .status) (defined : regAt s.params.blockMax off ≠ .reserved)
      (result : t = ({ s with inputs := rest } : State).setOvr)
  | illegal (w : Word) (rest : List Input) (inputs : s.inputs = .hostWrite (s.params.owBase + 0x00) 4 w :: rest)
      (idle : s.busy = false) (word : legal s.params.blockMax w = false)
      (result : t = ({ s with inputs := rest } : State).setIll)
  | reset (rest : List Input) (inputs : s.inputs = .resetAssert :: rest)
      (result : t = ({ s with inputs := rest } : State).blockReset)

theorem advanceProgram_sticky (s : State) (p : Program) :
    (s.advanceProgram p).ovr = s.ovr ∧ (s.advanceProgram p).ill = s.ill := by
  rcases advanceProgram_cases s p with hcomplete | ⟨-, -, -, -, -, hovr, hill, -⟩
  · rw [hcomplete]
    exact ⟨(complete_same s p.result).ovr, (complete_same s p.result).ill⟩
  · exact ⟨hovr, hill⟩

theorem step_stickyCase {s t : State} (hstep : step s = .next t) : StickyCase s t := by
  cases step_cases hstep with
  | hostRead off rest _ _ _ _ res =>
    obtain ⟨v, d, hread⟩ := hostReadReg_changes { s with inputs := rest } (regAt s.params.blockMax off)
    rw [res, hread]
    exact .kept rfl rfl
  | hostWrite off v rest hinputs _ _ _ res =>
    rcases hostWriteReg_sticky { s with inputs := rest } (regAt s.params.blockMax off) v with
      ⟨hovr, hill⟩ | ⟨hreg, hwrite⟩ | ⟨hbusy, hstatus, hdefined, hwrite⟩ | ⟨hidle, hreg, hword, hwrite⟩
    · exact .kept (res ▸ hovr) (res ▸ hill)
    · exact .cleared v rest (regAt_status hreg ▸ hinputs) (res.trans hwrite)
    · exact .dropped off v rest hinputs hbusy hstatus hdefined (res.trans hwrite)
    · exact .illegal v rest (regAt_cmd hreg ▸ hinputs) hidle hword (res.trans hwrite)
  | resetAssert rest hinputs res => exact .reset rest hinputs res
  | resetRelease rest _ res | nothing rest _ _ res | takeUp rest _ _ _ _ _ _ res => rw [res]; exact .kept rfl rfl
  | move rest p _ _ _ _ res =>
    obtain ⟨hovr, hill⟩ := advanceProgram_sticky { s with inputs := rest } p
    exact .kept (res ▸ hovr) (res ▸ hill)
  | whole rest i _ _ _ _ hcommand res =>
    rw [exec_wf (s := { s with inputs := rest }) (wf_of_decode hcommand)] at res
    cases res
    obtain ⟨-, hovr, hill, -⟩ := finish_frame { s with inputs := rest, temps := .fresh }
      (programOf i { s with inputs := rest })
    exact .kept hovr hill
  | remainder rest p _ _ _ _ res =>
    obtain ⟨-, hovr, hill, -⟩ := finish_frame { s with inputs := rest } p
    exact .kept (res ▸ hovr) (res ▸ hill)

/-- A bit that is kept neither rises nor falls. -/
theorem kept_bit {a b : Bool} {P Q : Prop} (h : b = a) :
    (a = false → b = true → P) ∧ (a = true → b = false → Q) := by
  subst h
  cases b <;> simp

/-- A bit that a write clears where `c` is 1 does not rise, and falls only there (10_state.md R22). -/
theorem cleared_bit {a c : Bool} {P Q : Prop} (h : c = true → Q) :
    (a = false → (a && !c) = true → P) ∧ (a = true → (a && !c) = false → Q) := by
  cases c with
  | true => exact ⟨fun hlow hhigh => by simp at hhigh, fun _ _ => h rfl⟩
  | false => exact kept_bit (by simp)

/-- Settles O12: of the turns that change a sticky bit, only the dropped write sets OVR, and only a write of STATUS and a
reset clear it. -/
theorem ovrRisesAndFalls : Obligations.OvrRisesAndFalls := by
  intro s t hstep
  cases step_stickyCase hstep with
  | kept hovr _ => exact kept_bit hovr
  | cleared v rest hinputs res =>
    subst res
    exact cleared_bit fun hbit => .inl ⟨v, rest, hinputs, hbit⟩
  | dropped off v rest hinputs hbusy hstatus hdefined res =>
    subst res
    have hoffset : s.params.owBase + off - s.params.owBase = off := Nat.add_sub_cancel_left ..
    exact ⟨fun _ _ => ⟨hbusy, _, v, rest, hinputs, by rwa [hoffset], by rwa [hoffset]⟩, nofun⟩
  | illegal w rest _ _ _ res =>
    subst res
    exact kept_bit rfl
  | reset rest hinputs res =>
    subst res
    exact ⟨nofun, fun _ _ => .inr ⟨rest, hinputs⟩⟩

/-- Settles O13: of the turns that change a sticky bit, only the write of an illegal word sets ILL, and only a write of
STATUS and a reset clear it. -/
theorem illRisesAndFalls : Obligations.IllRisesAndFalls := by
  intro s t hstep
  cases step_stickyCase hstep with
  | kept _ hill => exact kept_bit hill
  | cleared v rest hinputs res =>
    subst res
    exact cleared_bit fun hbit => .inl ⟨v, rest, hinputs, hbit⟩
  | dropped off v rest _ _ _ _ res =>
    subst res
    exact kept_bit rfl
  | illegal w rest hinputs hidle hword res =>
    subst res
    exact ⟨fun _ _ => ⟨hidle, w, rest, hinputs, hword, rfl⟩, nofun⟩
  | reset rest hinputs res =>
    subst res
    exact ⟨nofun, fun _ _ => .inr ⟨rest, hinputs⟩⟩

end Sys2Proof.Machine
end

section
/-! The outcomes of a search command (O42): what each leaves in the search state, CRC and STATUS (60_exceptions.md R221). -/

namespace Sys2Proof.Machine

open Sys2Proof

/-! ## The last discrepancy -/

/-- The last discrepancy a loop records is a position of a ROM code (42_search.md R167). -/
theorem searchLoop_lastZero_le {k left : Nat} {n lz : Pos} (s : State) (hn : n.toNat = k + 1) (hleft : k + left ≤ 64)
    (hlz : lz ≤ 64) : (Pseudo.searchLoop left n lz s).2.1 ≤ 64 := by
  induction left generalizing k n lz s with
  | zero => exact hlz
  | succ left ih =>
    cases hdecision : decision s.nextLevel s.dropLevel.nextLevel n s with
    | none => rwa [searchLoop_abort left lz hdecision]
    | some d =>
      have hposition : n ≤ 64 := BitVec.le_def.2 (by rw [hn]; exact (by omega : k + 1 ≤ 64))
      rw [searchLoop_goOn left lz hdecision]
      exact ih _ (toNat_nextPos hn (by omega)) (by omega) (by split <;> assumption)

/-! ## How a pass can end -/

/-- The rows of R221 for the pass that begins in `u`: its outcome, and what it leaves. -/
inductive PassOutcome (u : State) : (Sres × Bool × Bool) × State → Prop where
  | exhausted (flag : u.lastDevFlag = true) : PassOutcome u ((.exhausted, false, false), u)
  | noPresence (v : State) (flag : u.lastDevFlag = false) (crc : v.crc = 0) :
      PassOutcome u ((.noPresence, true, false), v.resetSearch)
  | busError (v : State) (flag : u.lastDevFlag = false) : PassOutcome u ((.busError, true, true), v.resetSearch)
  | crcError (v : State) (flag : u.lastDevFlag = false) (crc : v.crc ≠ 0) :
      PassOutcome u ((.crcError, true, true), v.resetSearch)
  | zeroFamily (v : State) (flag : u.lastDevFlag = false) (crc : v.crc = 0) :
      PassOutcome u ((.zeroFamily, true, true), v.resetSearch)
  | found (v : State) (lz : Pos) (flag : u.lastDevFlag = false) (crc : v.crc = 0) (family : romByte v.rom 0 ≠ 0)
      (inCode : lz ≤ 64) :
      PassOutcome u ((.found, true, true), { v with lastDisc := lz, lastDevFlag := decide (lz = 0) })

/-- Steps 5 to 7 end a pass that reached them by one of the rows (42_search.md R165, R170, R171). -/
theorem passOutcome_searchEnd {u : State} (flag : u.lastDevFlag = false) (ok : Bool) {lz : Pos} (hlz : lz ≤ 64)
    (v : State) :
    PassOutcome u (((Pseudo.searchEnd ok lz v).1, true, true), (Pseudo.searchEnd ok lz v).2) := by
  cases ok with
  | false => exact .busError v flag
  | true =>
    by_cases hcrc : v.crc = 0
    · by_cases hfamily : romByte v.rom 0 = 0
      · rw [searchEnd_zeroFamily lz hcrc hfamily]
        exact .zeroFamily v flag hcrc
      · rw [searchEnd_found lz hcrc hfamily]
        exact .found v lz flag hcrc hfamily hlz
    · rw [searchEnd_crcError lz hcrc]
      exact .crcError v flag hcrc

theorem searchPass_outcome (u : State) : PassOutcome u (Pseudo.searchPass u) := by
  cases hflag : u.lastDevFlag with
  | true =>
    rw [searchPass_exhausted hflag]
    exact .exhausted hflag
  | false =>
    cases hlevel : u.nextLevel with
    | true =>
      rw [searchPass_absent hflag hlevel]
      exact .noPresence _ hflag (by rw [resetPresence_state]; rfl)
    | false =>
      rw [searchPass_present hflag hlevel]
      exact passOutcome_searchEnd hflag _ (searchLoop_lastZero_le (k := 0) _ rfl le_rfl (by decide)) _

/-! ## The commands -/

/-- Only OW_SEARCH_NEXT can begin its pass with the search exhausted (42_search.md R161, R173). -/
theorem searchStart_lastDevFlag {i : Instr} (hi : i = .owSearchFirst ∨ i = .owSearchNext) (s : State) :
    (s.searchStart i).lastDevFlag = true ↔ i = .owSearchNext ∧ s.lastDevFlag = true := by
  rcases hi with rfl | rfl <;> simp [State.searchStart]

/-- Settles O42: the pass ends by a row of R221, and the completion writes its outcome. -/
theorem searchOutcomes : Obligations.SearchOutcomes := by
  intro i s t hi hexec
  rw [exec_search hi] at hexec
  cases hexec
  rw [← searchStart_lastDevFlag hi s]
  generalize s.searchStart i = u
  have hrow := searchPass_outcome u
  generalize Pseudo.searchPass u = x at hrow
  cases hrow with
  | exhausted flag => simp [Pseudo.searchComplete, flag]
  | noPresence v flag crc => simp [Pseudo.searchComplete, flag, crc]
  | busError v flag => simp [Pseudo.searchComplete, flag]
  | crcError v flag crc => simpa [Pseudo.searchComplete, flag] using crc
  | zeroFamily v flag crc => simp [Pseudo.searchComplete, flag, crc]
  | found v lz flag crc family inCode => simpa [Pseudo.searchComplete, flag, crc] using ⟨family, inCode⟩

end Sys2Proof.Machine
end

section
/-! No command hangs (O53): an element performs at most one line event, of bounded duration, so a command performs no more
than its program has elements that are events (60_exceptions.md R235). -/

namespace Sys2Proof.Machine

open Sys2Proof

/-! ## The events performed between two states -/

/-- From `s` to `t` at most `n` line events are performed, none longer than the longest wait of 16 bits of ticks
(40_timing.md R100, R101). -/
def State.PerformsAtMost (n : Nat) (s t : State) : Prop :=
  ∃ es, t.trace = es ++ s.trace ∧ es.length ≤ n ∧ ∀ e ∈ es, e.us ≤ 16383

theorem State.PerformsAtMost.of_trace_eq {s t : State} (n : Nat) (h : t.trace = s.trace) : s.PerformsAtMost n t :=
  ⟨[], h, Nat.zero_le n, nofun⟩

theorem State.PerformsAtMost.of_event {s t : State} {e : LineEvent} (h : t.trace = e :: s.trace) (hus : e.us ≤ 16383) :
    s.PerformsAtMost 1 t :=
  ⟨[e], h, le_rfl, by simpa using hus⟩

theorem State.PerformsAtMost.trans {s t u : State} {m n : Nat} (h : s.PerformsAtMost m t) (k : t.PerformsAtMost n u) :
    s.PerformsAtMost (m + n) u := by
  obtain ⟨es, htrace, hlength, hus⟩ := h
  obtain ⟨fs, ktrace, klength, kus⟩ := k
  refine ⟨fs ++ es, by rw [ktrace, htrace, List.append_assoc], by rw [List.length_append]; omega, fun e he => ?_⟩
  rcases List.mem_append.1 he with hlast | hfirst
  · exact kus e hlast
  · exact hus e hfirst

theorem State.PerformsAtMost.mono {s t : State} {m n : Nat} (h : s.PerformsAtMost m t) (hmn : m ≤ n) :
    s.PerformsAtMost n t := by
  obtain ⟨es, htrace, hlength, hus⟩ := h
  exact ⟨es, htrace, hlength.trans hmn, hus⟩

/-! ## Elements and lists of elements -/

/-- The elements that are line events; an inner action is none. -/
def Op.isEvent : Op → Bool
  | .act _ => false
  | _ => true

theorem passEnd_trace (s : State) : s.passEnd.trace = s.trace := by
  simp only [State.passEnd]
  split
  · rfl
  split
  · rfl
  split <;> rfl

theorem direction_trace (s : State) : s.direction.trace = s.trace := by
  unfold State.direction
  split
  · exact passEnd_trace _
  split
  · rfl
  split <;> rfl

/-- No inner action performs a line event. -/
theorem doAct_trace (s : State) (a : Act) : (s.doAct a).trace = s.trace := by
  cases a with
  | passBegin => simp only [State.doAct, State.passBegin]; split <;> rfl
  | presenceCheck => simp only [State.doAct, State.presenceCheck]; split <;> rfl
  | direction => exact direction_trace s
  | passEnd => exact passEnd_trace s
  | clearByte | storeByte k | resetSearch | loopBegin | advance => rfl

theorem wait_us_le (t : Ticks) : (LineEvent.wait (t.toNat / 4)).us ≤ 16383 := by
  have hticks := t.isLt
  simp only [LineEvent.us]
  omega

/-- An element performs one line event if it is one. -/
theorem doOp_performs (s : State) (op : Op) : s.PerformsAtMost op.isEvent.toNat (s.doOp op) := by
  cases op with
  | drive | release => exact .of_event rfl (Nat.zero_le _)
  | delay t => exact .of_event rfl (wait_us_le t)
  | delayDir one zero => exact .of_event rfl (wait_us_le _)
  | sample d => exact .of_event (e := .sample s.level) (by simp [State.doOp]) (Nat.zero_le _)
  | act a => exact .of_trace_eq _ (doAct_trace s a)

/-- A list of elements performs no more line events than it has. -/
theorem runOps_performs (ops : List Op) (s : State) : s.PerformsAtMost (ops.countP Op.isEvent) (runOps ops s) := by
  induction ops generalizing s with
  | nil => exact .of_trace_eq _ rfl
  | cons op rest ih =>
    cases hstop : s.temps.stop with
    | true => rw [runOps_of_stop _ _ hstop]; exact .of_trace_eq _ rfl
    | false =>
      rw [runOps_cons _ _ _ hstop]
      refine ((doOp_performs s op).trans (ih _)).mono (le_of_eq ?_)
      cases hevent : op.isEvent <;> simp [hevent, Nat.add_comm]

/-! ## The events of the commands' programs -/

theorem countP_act (a : Act) (ops : List Op) : (Op.act a :: ops).countP Op.isEvent = ops.countP Op.isEvent :=
  List.countP_cons_of_neg nofun

theorem countP_flatMap_le {f : Nat → List Op} {n : Nat} (hf : ∀ i, (f i).countP Op.isEvent ≤ n) (l : List Nat) :
    (l.flatMap f).countP Op.isEvent ≤ l.length * n := by
  rw [List.countP_flatMap]
  refine (List.sum_le_card_nsmul _ n ?_).trans (by simp)
  simpa using fun i _ => hf i

theorem countP_writeBitOps (p : Profile) (b : Bool) : (writeBitOps p b).countP Op.isEvent = 4 := by
  cases b <;> rfl

theorem countP_writeByteOps_le (p : Profile) (v : Byte) : (writeByteOps p v).countP Op.isEvent ≤ 32 :=
  countP_flatMap_le (fun _ => (countP_writeBitOps p _).le) _

theorem countP_touchBitOps_le (p : Profile) (v : Byte) (i : Nat) : (touchBitOps p v i).countP Op.isEvent ≤ 6 := by
  unfold touchBitOps
  split
  · exact le_rfl
  · exact (countP_writeBitOps p false).le.trans (by decide)

theorem countP_touchByteOps_le (p : Profile) (v : Byte) : (touchByteOps p v).countP Op.isEvent ≤ 48 :=
  countP_flatMap_le (countP_touchBitOps_le p v) _

theorem countP_touchBufOps_le (p : Profile) (k : Nat) (bytes : List Byte) :
    (touchBufOps p k bytes).countP Op.isEvent ≤ 48 * bytes.length := by
  induction bytes generalizing k with
  | nil => exact le_rfl
  | cons v rest ih =>
    have hbyte := countP_touchByteOps_le p v
    have hrest := ih (k + 1)
    rw [touchBufOps, List.countP_append, countP_act, List.length_cons]
    omega

theorem countP_positionsOps (p : Profile) (k : Nat) : (positionsOps p k).countP Op.isEvent = 16 * k := by
  induction k with
  | zero => rfl
  | succ k ih =>
    have hposition : (positionOps p).countP Op.isEvent = 16 := rfl
    rw [positionsOps, List.countP_append, hposition, ih]
    omega

theorem countP_searchPassOps_le (p : Profile) : (searchPassOps p).countP Op.isEvent ≤ 1062 := by
  have hreset : (resetPresenceOps p).countP Op.isEvent = 6 := rfl
  have hbyte := countP_writeByteOps_le p 0xF0
  simp only [searchPassOps, countP_act, List.countP_append, hreset, countP_positionsOps, List.countP_nil]
  omega

/-- A command's program has no more events than R235's bound. -/
theorem countP_programOf_le {i : Instr} {s : State} (hwf : i.wf s.params.blockMax = true) :
    (programOf i s).ops.countP Op.isEvent ≤ eventBound s.params.blockMax i := by
  cases i with
  | owReset | owReadBit | crc8Update _ | delay _ => exact le_rfl
  | owWriteBit bit => exact (countP_writeBitOps _ bit).le
  | owWriteByte byte => exact (countP_writeByteOps_le _ byte).trans (by simp [eventBound])
  | owReadByte =>
    rw [programOf, owReadByteProgram, readByteOps_touch]
    exact countP_touchByteOps_le _ 0xFF
  | owTouchByte byte => exact countP_touchByteOps_le _ byte
  | owBlockTouch len =>
    have hlen : len.toNat ≤ s.params.blockMax := of_decide_eq_true hwf
    have htaken : (s.buf.take len.toNat).length ≤ len.toNat := List.length_take_le _ _
    exact (countP_touchBufOps_le _ 0 _).trans (Nat.mul_le_mul_left 48 (htaken.trans hlen))
  | owSearchFirst => exact (countP_act _ _).le.trans (countP_searchPassOps_le _)
  | owSearchNext => exact countP_searchPassOps_le _

/-- A command's meaning performs no more events than R235's bound: an over-long block touch performs none. -/
theorem exec_performs {i : Instr} {s t : State} (h : exec i s = .next t) :
    s.PerformsAtMost (eventBound s.params.blockMax i) t := by
  cases hwf : i.wf s.params.blockMax with
  | true =>
    rw [exec_wf hwf] at h
    cases h
    obtain ⟨es, htrace, hlength, hus⟩ := runOps_performs (programOf i s).ops { s with temps := .fresh }
    exact ⟨es, (complete_same _ _).trace.trans htrace, hlength.trans (countP_programOf_le hwf), hus⟩
  | false =>
    rw [exec_not_wf hwf] at h
    cases h
    exact .of_trace_eq _ rfl

/-- Settles O53: every command's meaning answers a next state, with BUSY 0, after the events of its program. -/
theorem noCommandHangs : Obligations.NoCommandHangs := by
  intro i s
  obtain ⟨t, hexec⟩ : ∃ t, exec i s = .next t := by
    rcases exec_answers i s with hnext | ⟨-, -, -, hnext⟩ <;> exact ⟨_, hnext⟩
  obtain ⟨es, htrace, hlength, hus⟩ := exec_performs hexec
  exact ⟨t, es, hexec, exec_busy hexec, htrace, hlength, hus⟩

end Sys2Proof.Machine
end

section
/-! Reset (O23, O24, O56): the state right after it, its assertion and its release, and what does not happen while it is
asserted (70_reset_and_hazards.md R250, R251). -/

namespace Sys2Proof.Machine

open Sys2Proof

/-! ## Right after reset -/

/-- OW_SEARCH_FIRST is OW_SEARCH_NEXT from a reset search state (42_search.md R173). -/
theorem exec_owSearchFirst_eq_next (s : State) : exec .owSearchFirst s = exec .owSearchNext s.resetSearch := by
  rw [exec_owSearchFirst, exec_owSearchNext]

theorem statusWord_resetOf (p : Params) : (State.resetOf p).statusWord = 0 := by
  simp [State.statusWord, State.resetOf, flagAt, Sres.code]

/-- The search state right after reset is the one `ResetSearchState()` leaves (70_reset_and_hazards.md R251). -/
theorem resetSearch_resetOf (p : Params) : (State.resetOf p).resetSearch = State.resetOf p := rfl

/-- Settles O23: the values are those of `State.resetOf`, and a reset of its search state leaves it. -/
theorem valuesAfterReset : Obligations.ValuesAfterReset := by
  intro p s
  have hbuf : s.buf.length = p.blockMax := of_decide_eq_true (wf_resetOf p)
  have hfirst : exec .owSearchNext s = exec .owSearchFirst s := by
    rw [exec_owSearchFirst_eq_next, resetSearch_resetOf]
  exact ⟨statusWord_resetOf p, rfl, rfl, rfl, rfl, rfl, rfl, rfl, rfl, rfl, rfl, rfl, rfl, hbuf, rfl, rfl, rfl, rfl,
    hfirst⟩

/-- Right after reset, with legal parameters, the sequencer is idle with the line released. -/
theorem inv_resetOf {p : Params} (hp : p.legal = true) : Inv (State.resetOf p) where
  paramsLegal := hp
  bufWf := wf_resetOf p
  curLegal := nofun
  idle _ := ⟨rfl, rfl, rfl, rfl⟩
  lineReleased _ := rfl
  lineInCommand := nofun
  lineAtExit := nofun
  foundIsSres := rfl
  resetIdle _ := rfl

/-- Settles O56: the default parameters are legal. -/
theorem invAtReset : Obligations.InvAtReset :=
  ⟨inv_resetOf (by decide), fun _ => inv_resetOf⟩

/-! ## The reset input -/

theorem step_of_resetAssert {s : State} {rest : List Input} (h : s.inputs = .resetAssert :: rest) :
    step s = .next ({ s with inputs := rest } : State).blockReset := by
  simp [step, State.takeTurn, h]

theorem step_of_resetRelease {s : State} {rest : List Input} (h : s.inputs = .resetRelease :: rest) :
    step s = .next { s with inputs := rest, inReset := false } := by
  simp [step, State.takeTurn, h]

theorem step_of_sequencer {s : State} {rest : List Input} (h : s.inputs = .sequencer :: rest) :
    step s = ({ s with inputs := rest } : State).sequencerMove := by
  simp [step, State.takeTurn, h]

/-- While reset is asserted the sequencer does not move. -/
theorem sequencerMove_inReset {s : State} (h : s.inReset = true) : s.sequencerMove = .next s := by
  simp [State.sequencerMove, h]

/-- While reset is asserted no command runs. -/
theorem runToCompletion_inReset {s : State} (h : s.inReset = true) : s.runToCompletion = .next s := by
  simp [State.runToCompletion, h]

/-- While reset is asserted no access of the window has an offset, whatever its shape. -/
theorem offsetOf_inReset (s : State) (off bytes : Nat) (hreset : s.inReset = true) (hlt : off < 256) :
    s.offsetOf (s.params.owBase + off) bytes = .error .accessDuringReset := by
  have hwindow : ¬(s.params.owBase + off < s.params.owBase ∨ s.params.owBase + 256 ≤ s.params.owBase + off) := by
    omega
  rw [State.offsetOf, if_neg hwindow, if_pos hreset]

/-- Settles O24: the turns of the reset input, of a sequencer held in reset and of an access refused. -/
theorem blockReset : Obligations.BlockReset := by
  intro s rest
  refine ⟨fun hinputs => ?_, fun hreset hinputs => ?_, fun hreset hinputs => ?_, step_of_resetRelease,
    fun hreset off bytes v hlt => ?_⟩
  · exact ⟨State.drawnBuf s.params.blockMax s.resetDraws, of_decide_eq_true (wf_blockReset s),
      step_of_resetAssert hinputs⟩
  · rcases hinputs with hmove | hrun
    · rw [step_of_sequencer hmove, sequencerMove_inReset (s := { s with inputs := rest }) hreset]
    · rw [step_of_run hrun, runToCompletion_inReset (s := { s with inputs := rest }) hreset]
  · rw [step_of_no_inputs hinputs, runToCompletion_inReset hreset]
  · have hoff := offsetOf_inReset { s with inputs := rest } off bytes hreset hlt
    constructor
    · intro hinputs
      rw [step_of_hostRead hinputs, State.hostRead, hoff]
    · intro hinputs
      rw [step_of_hostWrite hinputs, State.hostWrite, hoff]

end Sys2Proof.Machine
end

section
/-! Host accesses while BUSY is 1 (O14, O15): which offsets are defined and which a busy read does not get, and the busy
write and read at every aligned offset (70_reset_and_hazards.md R254, R255). -/

namespace Sys2Proof.Machine

open Sys2Proof

/-! ## The offsets -/

/-- The aligned offsets up to 0x44 are defined. -/
theorem regAt_low_ne_reserved {blockMax off : Nat} (h4 : off % 4 = 0) (hlow : off ≤ 0x44) :
    regAt blockMax off ≠ .reserved := by
  obtain ⟨k, rfl⟩ := Nat.dvd_of_mod_eq_zero h4
  have hk : k ≤ 17 := by omega
  interval_cases k <;> nofun

/-- Of them a busy read does not get DATA, CRC, SRCH and ROM. -/
theorem freeWhileBusy_regAt_low {blockMax off : Nat} (h4 : off % 4 = 0) (hlow : off ≤ 0x44) :
    (regAt blockMax off).freeWhileBusy = decide (0x08 ≤ off ∧ off ≤ 0x18) := by
  obtain ⟨k, rfl⟩ := Nat.dvd_of_mod_eq_zero h4
  have hk : k ≤ 17 := by omega
  interval_cases k <;> rfl

/-- The reserved offsets are those past the timing constants that are not of BUF (20_memory.md R52, R54). -/
theorem regAt_eq_reserved_iff {blockMax off : Nat} (h4 : off % 4 = 0) :
    regAt blockMax off = .reserved ↔ ¬(off ≤ 0x44 ∨ (0x80 ≤ off ∧ (off - 0x80) / 4 < blockMax / 4)) := by
  rcases Nat.lt_or_ge 0x44 off with hpast | hlow
  · rcases Nat.lt_or_ge off 0x80 with hmiddle | hhigh
    · simp [regAt_middle hpast hmiddle, hpast, hmiddle]
    · rw [regAt_high hhigh h4]
      split <;> simp [*]
  · simp [regAt_low_ne_reserved h4 hlow, hlow]

/-- A busy read does not get the result registers and BUF (70_reset_and_hazards.md R255). -/
theorem freeWhileBusy_regAt_iff {blockMax off : Nat} (h4 : off % 4 = 0) :
    (regAt blockMax off).freeWhileBusy = true ↔
      (0x08 ≤ off ∧ off ≤ 0x18) ∨ (0x80 ≤ off ∧ (off - 0x80) / 4 < blockMax / 4) := by
  rcases Nat.lt_or_ge 0x44 off with hpast | hlow
  · rcases Nat.lt_or_ge off 0x80 with hmiddle | hhigh
    · rw [regAt_middle hpast hmiddle]
      exact iff_of_false nofun (by omega)
    · rw [regAt_high hhigh h4]
      split
      next hin => exact iff_of_true rfl (.inr ⟨hhigh, hin⟩)
      next hpastBuf => exact iff_of_false nofun (by omega)
  · rw [freeWhileBusy_regAt_low h4 hlow, decide_eq_true_eq]
    omega

/-! ## The accesses -/

/-- A busy write of a defined register but STATUS is dropped and sets OVR. -/
theorem hostWriteReg_dropped {s : State} {r : Reg} (v : Word) (hbusy : s.busy = true) (hstatus : r ≠ .status)
    (hdefined : r ≠ .reserved) : s.hostWriteReg r v = { s with ovr := true } := by
  rw [State.hostWriteReg, if_pos hbusy]
  cases r with
  | status => exact absurd rfl hstatus
  | reserved => exact absurd rfl hdefined
  | _ => rfl

/-- A write of STATUS clears the sticky bits, BUSY or not. -/
theorem hostWriteReg_status (s : State) (v : Word) : s.hostWriteReg .status v = s.clearSticky v :=
  ite_self _

/-- A busy read of a register that it does not get answers a free draw. -/
theorem hostReadReg_free {s : State} {r : Reg} (hbusy : s.busy = true) (hfree : r.freeWhileBusy = true) :
    s.hostReadReg r =
      { s with replies := Config.freeWord s.readDraws :: s.replies, readDraws := s.readDraws + 1 } := by
  simp [State.hostReadReg, hbusy, hfree]

/-- A read of any other register gives its value, BUSY or not. -/
theorem hostReadReg_value (s : State) {r : Reg} (hvalue : r.freeWhileBusy = false) :
    s.hostReadReg r = { s with replies := s.readReg r :: s.replies } := by
  simp [State.hostReadReg, hvalue]

theorem readReg_withInputs (s : State) (inputs : List Input) (r : Reg) :
    ({ s with inputs := inputs } : State).readReg r = s.readReg r := by
  cases r <;> rfl

/-- Settles O14: the offset's register is STATUS, another defined one or the reserved one. -/
theorem writeWhileBusy : Obligations.WriteWhileBusy := by
  intro s off v rest hreset hbusy hlt h4 hinputs
  rw [step_hostWrite_window hreset hlt h4 hinputs]
  split
  case isTrue hstatus =>
    subst hstatus
    exact congrArg _ (hostWriteReg_status _ v)
  case isFalse hother =>
    split
    case isTrue hdefined =>
      have hreg : regAt s.params.blockMax off ≠ .reserved := fun hr => (regAt_eq_reserved_iff h4).1 hr hdefined
      rw [hostWriteReg_dropped (s := { s with inputs := rest }) v hbusy (mt regAt_status hother) hreg]
    case isFalse hundefined =>
      rw [(regAt_eq_reserved_iff h4).2 hundefined, hostWriteReg_reserved]

/-- Settles O15: the offset's register is one that a busy read does not get, or gives its value. -/
theorem readWhileBusy : Obligations.ReadWhileBusy := by
  intro s off rest hreset hbusy hlt h4 hinputs
  rw [step_hostRead_window hreset hlt h4 hinputs]
  split
  case isTrue hfree =>
    rw [hostReadReg_free (s := { s with inputs := rest }) hbusy ((freeWhileBusy_regAt_iff h4).2 hfree)]
  case isFalse hvalue =>
    rw [hostReadReg_value _ (Bool.eq_false_iff.2 (mt (freeWhileBusy_regAt_iff h4).1 hvalue)), readReg_withInputs]

end Sys2Proof.Machine
end

section
/-! Durations (O52): a command but the searches lasts the sum of its elements' waits, and a pass what its events do
(70_reset_and_hazards.md R261). -/

namespace Sys2Proof.Machine

open Sys2Proof

/-! ## Slots -/

/-- Microseconds of a write slot (41_transactor.md R125). -/
def writeUs (p : Profile) (b : Bool) : Nat :=
  if b then p.tA.toNat / 4 + p.tB.toNat / 4 else p.tC.toNat / 4 + p.tD.toNat / 4

/-- Microseconds of a read slot (R126). -/
def readUs (p : Profile) : Nat := p.tA.toNat / 4 + p.tE.toNat / 4 + p.tF.toNat / 4

/-- Microseconds of a reset and presence slot (R124). -/
def resetUs (p : Profile) : Nat := p.tH.toNat / 4 + p.tI.toNat / 4 + p.tJ.toNat / 4

/-- Microseconds of a slot of a touch (R129). -/
def touchBitUs (p : Profile) (b : Bool) : Nat := if b then readUs p else writeUs p false

theorem sum_map_flatMap {α β : Type} (g : β → Nat) (f : α → List β) (l : List α) :
    ((l.flatMap f).map g).sum = (l.map fun a => ((f a).map g).sum).sum := by
  induction l with
  | nil => rfl
  | cons a rest ih => simp [ih]

/-- A sum over bits, the ones and the zeros counted. -/
theorem sum_map_bool (f : Bool → Nat) (l : List Bool) :
    (l.map f).sum = l.countP (fun b => b) * f true + (l.length - l.countP fun b => b) * f false := by
  induction l with
  | nil => simp
  | cons b rest ih =>
    have hle := rest.countP_le_length (p := fun b => b)
    rw [List.map_cons, List.sum_cons, ih, List.countP_cons, List.length_cons]
    cases b with
    | true => rw [if_pos rfl, Nat.add_sub_add_right, Nat.succ_mul]; omega
    | false => rw [if_neg nofun, Nat.add_zero, Nat.succ_sub hle, Nat.succ_mul]; omega

/-- A sum over a byte's bits in wire order (20_memory.md R59, 70_reset_and_hazards.md R261). -/
theorem sum_map_wireBits (v : Byte) (f : Bool → Nat) :
    ((wireBits v).map f).sum = ones v * f true + (8 - ones v) * f false := sum_map_bool f (wireBits v)

/-! ## The elements of the commands but the searches -/

/-- Microseconds of an element that carries its own ticks (40_timing.md R100). -/
def Op.us : Op → Nat
  | .delay ticks => ticks.toNat / 4
  | .drive | .release | .delayDir _ _ | .sample _ | .act _ => 0

/-- Microseconds of a list of such elements. -/
def opsUs (ops : List Op) : Nat := (ops.map Op.us).sum

@[simp] theorem opsUs_nil : opsUs [] = 0 := rfl

@[simp] theorem opsUs_cons (op : Op) (rest : List Op) : opsUs (op :: rest) = op.us + opsUs rest := by simp [opsUs]

/-- Inner actions take no time (log 10). -/
theorem opsUs_act (a : Act) (rest : List Op) : opsUs (.act a :: rest) = opsUs rest := by simp [Op.us]

@[simp] theorem opsUs_append (a b : List Op) : opsUs (a ++ b) = opsUs a + opsUs b := by simp [opsUs]

theorem opsUs_flatMap {α : Type} (f : α → List Op) (l : List α) :
    opsUs (l.flatMap f) = (l.map fun a => opsUs (f a)).sum := sum_map_flatMap Op.us f l

theorem doOp_duration (s : State) {n : Nat} {op : Op} (h : op.plainBelow n = true) :
    duration (s.doOp op).trace = op.us + duration s.trace := by
  cases op with
  | drive | release | delay _ => simp [State.doOp, duration, LineEvent.us, Op.us]
  | delayDir _ _ => cases h
  | sample d => simp [State.doOp, duration, LineEvent.us, Op.us]
  | act a => rw [State.doOp, doAct_trace, Op.us, Nat.zero_add]

/-- Such an element meets no exit of a pass. -/
theorem doOp_stop (s : State) {n : Nat} {op : Op} (h : op.plainBelow n = true) :
    (s.doOp op).temps.stop = s.temps.stop := by
  cases op with
  | drive | release | delay _ => rfl
  | delayDir _ _ => cases h
  | sample d => cases d <;> simp [State.doOp, State.sample, State.putSample]
  | act a =>
    cases a with
    | clearByte | storeByte _ => rfl
    | resetSearch | passBegin | presenceCheck | loopBegin | direction | advance | passEnd => cases h

theorem runOps_duration (s : State) {n : Nat} {ops : List Op} (h : ops.all (Op.plainBelow n) = true)
    (hgo : s.temps.stop = false) : duration (runOps ops s).trace = opsUs ops + duration s.trace := by
  induction ops generalizing s with
  | nil => simp [runOps]
  | cons op rest ih =>
    obtain ⟨hop, hrest⟩ := by simpa only [List.all_cons, Bool.and_eq_true] using h
    rw [runOps_cons _ _ _ hgo, ih _ hrest ((doOp_stop s hop).trans hgo), doOp_duration s hop, opsUs_cons]
    omega

/-- A command but the searches lasts what its program's elements do. -/
theorem exec_duration {i : Instr} {s t : State} (hwf : i.wf s.params.blockMax = true) (hfirst : i ≠ .owSearchFirst)
    (hnext : i ≠ .owSearchNext) (hexec : exec i s = .next t) {us : Nat} (hus : opsUs (programOf i s).ops = us) :
    duration t.trace = us + duration s.trace := by
  rw [exec_wf hwf] at hexec
  cases hexec
  rw [State.finish, (complete_same _ _).trace, ← hus]
  exact runOps_duration { s with temps := .fresh } (plain_programOf s hfirst hnext) rfl

/-! ## The durations of the commands' programs -/

theorem opsUs_resetPresenceOps (p : Profile) : opsUs (resetPresenceOps p) = resetUs p := by
  simp [resetPresenceOps, Op.us, resetUs, Nat.add_assoc]

theorem opsUs_writeBitOps (p : Profile) (b : Bool) : opsUs (writeBitOps p b) = writeUs p b := by
  cases b <;> simp [writeBitOps, Op.us, writeUs]

theorem opsUs_readBitOps (p : Profile) (into : Dest) : opsUs (readBitOps p into) = readUs p := by
  simp [readBitOps, Op.us, readUs, Nat.add_assoc]

theorem opsUs_touchBitOps (p : Profile) (v : Byte) (i : Nat) :
    opsUs (touchBitOps p v i) = touchBitUs p (v.getLsbD i) := by
  unfold touchBitOps touchBitUs
  split
  · exact opsUs_readBitOps p _
  · exact opsUs_writeBitOps p false

theorem opsUs_writeByteOps (p : Profile) (v : Byte) :
    opsUs (writeByteOps p v) = ones v * writeUs p true + (8 - ones v) * writeUs p false := by
  rw [← sum_map_wireBits v (writeUs p), wireBits, List.map_map, writeByteOps, opsUs_flatMap]
  simp only [opsUs_writeBitOps, Function.comp_def]

theorem opsUs_touchByteOps (p : Profile) (v : Byte) :
    opsUs (touchByteOps p v) = ones v * readUs p + (8 - ones v) * writeUs p false := by
  have hbits := sum_map_wireBits v (touchBitUs p)
  rw [wireBits, List.map_map] at hbits
  rw [touchByteOps, opsUs_act, opsUs_flatMap]
  simp only [opsUs_touchBitOps]
  exact hbits

/-- A read of a byte is a touch of eight ones. -/
theorem opsUs_readByteOps (p : Profile) : opsUs (readByteOps p) = 8 * readUs p := by
  rw [readByteOps_touch, opsUs_touchByteOps, show ones 0xFF = 8 from rfl, Nat.sub_self, Nat.zero_mul, Nat.add_zero]

theorem opsUs_touchBufOps (p : Profile) (k : Nat) (bytes : List Byte) :
    opsUs (touchBufOps p k bytes) =
      (bytes.map fun v => ones v * readUs p + (8 - ones v) * writeUs p false).sum := by
  induction bytes generalizing k with
  | nil => rfl
  | cons v rest ih =>
    rw [touchBufOps, opsUs_append, opsUs_act, opsUs_touchByteOps, ih, List.map_cons, List.sum_cons]

/-! ## The events of a pass -/

theorem duration_flatMap {α : Type} (f : α → List LineEvent) (l : List α) :
    duration (l.flatMap f) = (l.map fun a => duration (f a)).sum := sum_map_flatMap LineEvent.us f l

theorem duration_resetEvents (p : Profile) (b : Bool) : duration (resetEvents p b) = resetUs p := by
  simp [duration, resetEvents, LineEvent.us, resetUs, Nat.add_assoc]

theorem duration_writeEvents (p : Profile) (b : Bool) : duration (writeEvents p b) = writeUs p b := by
  cases b <;> simp [duration, writeEvents, LineEvent.us, writeUs]

theorem duration_readEvents (p : Profile) (b : Bool) : duration (readEvents p b) = readUs p := by
  simp [duration, readEvents, LineEvent.us, readUs, Nat.add_assoc]

theorem duration_position (p : Profile) (x : PassPosition) :
    duration (x.events p) = 2 * readUs p + writeUs p x.dir := by
  simp only [PassPosition.events, duration_append, duration_readEvents, duration_writeEvents]
  omega

/-- A pass lasts its reset, the byte 0xF0, its positions and the two reads of an abort. -/
theorem duration_passEvents (p : Profile) (xs : List PassPosition) (aborted : Bool) :
    duration (passEvents p xs aborted) =
      resetUs p + (4 * writeUs p false + 4 * writeUs p true) + (xs.map fun x => 2 * readUs p + writeUs p x.dir).sum
        + if aborted then 2 * readUs p else 0 := by
  have hbyte : ((wireBits 0xF0).map (writeUs p)).sum = 4 * writeUs p false + 4 * writeUs p true := by
    rw [sum_map_wireBits, show ones 0xF0 = 4 from rfl]
    omega
  have habort : duration (if aborted then readEvents p true ++ readEvents p true else []) =
      if aborted then 2 * readUs p else 0 := by
    cases aborted with
    | true => simp [duration_readEvents, Nat.two_mul]
    | false => rfl
  simp only [passEvents, duration_append, duration_flatMap, duration_resetEvents, duration_writeEvents,
    duration_position, hbyte, habort]

/-! ## The passes that end early -/

/-- Steps 5 to 7 answer neither of the outcomes of steps 1 and 2 (42_search.md R162). -/
theorem searchEnd_ne (ok : Bool) (lz : Pos) (s : State) :
    (Pseudo.searchEnd ok lz s).1 ≠ .exhausted ∧ (Pseudo.searchEnd ok lz s).1 ≠ .noPresence := by
  simp only [Pseudo.searchEnd]
  split
  · exact ⟨nofun, nofun⟩
  split
  · exact ⟨nofun, nofun⟩
  split <;> exact ⟨nofun, nofun⟩

/-- The events of a pass that ends in step 1 or step 2 (42_search.md R163, R164). -/
theorem searchPass_early_trace (s : State) :
    ((Pseudo.searchPass s).1.1 = .exhausted → (Pseudo.searchPass s).2.trace = s.trace)
      ∧ ((Pseudo.searchPass s).1.1 = .noPresence →
        (Pseudo.searchPass s).2.trace = (resetEvents s.params.profile true).reverse ++ s.trace) := by
  cases hgoes : s.lastDevFlag with
  | true =>
    rw [searchPass_exhausted hgoes]
    exact ⟨fun _ => rfl, nofun⟩
  | false =>
    cases hlevel : s.nextLevel with
    | true =>
      rw [searchPass_absent hgoes hlevel, resetPresence_state, State.clearCrc_nextLevel, hlevel]
      exact ⟨nofun, fun _ => rfl⟩
    | false =>
      rw [searchPass_present hgoes hlevel]
      obtain ⟨hexhausted, habsent⟩ := searchEnd_ne (Pseudo.searchLoop 64 1 0 s.atLoop).1
        (Pseudo.searchLoop 64 1 0 s.atLoop).2.1 (Pseudo.searchLoop 64 1 0 s.atLoop).2.2
      exact ⟨fun h => absurd h hexhausted, fun h => absurd h habsent⟩

/-- The same of the commands, whose completion performs nothing. -/
theorem exec_search_early_trace {i : Instr} {s t : State} (hi : i = .owSearchFirst ∨ i = .owSearchNext)
    (hexec : exec i s = .next t) :
    (t.sres = .exhausted → t.trace = s.trace)
      ∧ (t.sres = .noPresence → t.trace = (resetEvents s.params.profile true).reverse ++ s.trace) := by
  rw [exec_search hi] at hexec
  cases hexec
  have hearly := searchPass_early_trace (s.searchStart i)
  rwa [(searchStart_same i s).params, searchStart_trace] at hearly

/-! ## The commands -/

/-- The rows of R261 for the two searches. -/
theorem search_durations {i : Instr} {s t : State} (hi : i = .owSearchFirst ∨ i = .owSearchNext)
    (hexec : exec i s = .next t) :
    (t.sres = .exhausted → duration t.trace = duration s.trace)
    ∧ (t.sres = .noPresence → duration t.trace = resetUs s.params.profile + duration s.trace)
    ∧ (t.sres ≠ .exhausted → t.sres ≠ .noPresence → ∃ xs : List PassPosition,
        t.trace = (passEvents s.params.profile xs (decide (t.sres = .busError))).reverse ++ s.trace
        ∧ (if t.sres = .busError then xs.length < 64 else xs.length = 64)
        ∧ duration t.trace = resetUs s.params.profile
          + (4 * writeUs s.params.profile false + 4 * writeUs s.params.profile true)
          + (xs.map fun x => 2 * readUs s.params.profile + writeUs s.params.profile x.dir).sum
          + (if t.sres = .busError then 2 * readUs s.params.profile else 0) + duration s.trace) := by
  obtain ⟨hexhausted, habsent⟩ := exec_search_early_trace hi hexec
  refine ⟨fun h => congrArg duration (hexhausted h), fun h => ?_, fun hne hna => ?_⟩
  · rw [habsent h, duration_append, duration_reverse, duration_resetEvents]
  · obtain ⟨xs, _, htrace, hcount, -⟩ := passEventsAndPartialCrc i s t hi hexec hne hna
    refine ⟨xs, htrace, hcount, ?_⟩
    rw [htrace, duration_append, duration_reverse, duration_passEvents]
    simp only [decide_eq_true_eq]

/-- The row of R261 for OW_BLOCK_TOUCH; an over-long block performs nothing (log 17). -/
theorem owBlockTouch_duration {len : Byte} {s t : State} (hexec : exec (.owBlockTouch len) s = .next t) :
    duration t.trace =
      (if len.toNat ≤ s.params.blockMax then
        ((s.buf.take len.toNat).map fun v =>
          ones v * readUs s.params.profile + (8 - ones v) * writeUs s.params.profile false).sum
      else 0) + duration s.trace := by
  split
  case isTrue hlen =>
    exact exec_duration (i := .owBlockTouch len) (decide_eq_true hlen) nofun nofun hexec (opsUs_touchBufOps _ 0 _)
  case isFalse hlong =>
    rw [exec_not_wf (i := .owBlockTouch len) (decide_eq_false hlong)] at hexec
    cases hexec
    exact (Nat.zero_add _).symm

/-- Settles O52: a command lasts what its program's elements do, and a search what its pass's events do. -/
theorem commandDurations : Obligations.CommandDurations := by
  intro s t i hexec
  have hplain {us : Nat} (hwf : i.wf s.params.blockMax = true) (hfirst : i ≠ .owSearchFirst)
      (hnext : i ≠ .owSearchNext) := exec_duration (us := us) hwf hfirst hnext hexec
  cases i with
  | owReset => exact hplain rfl nofun nofun (opsUs_resetPresenceOps _)
  | owWriteBit bit => exact hplain rfl nofun nofun (opsUs_writeBitOps _ bit)
  | owReadBit => exact hplain rfl nofun nofun ((opsUs_act _ _).trans (opsUs_readBitOps _ _))
  | owWriteByte v => exact hplain rfl nofun nofun (opsUs_writeByteOps _ v)
  | owReadByte => exact hplain rfl nofun nofun (opsUs_readByteOps _)
  | owTouchByte v => exact hplain rfl nofun nofun (opsUs_touchByteOps _ v)
  | owBlockTouch len => exact owBlockTouch_duration hexec
  | owSearchFirst => exact search_durations (.inl rfl) hexec
  | owSearchNext => exact search_durations (.inr rfl) hexec
  | crc8Update byte => exact (hplain rfl nofun nofun rfl).trans (Nat.zero_add _)
  | delay ticks => exact hplain rfl nofun nofun rfl

end Sys2Proof.Machine
end
